-- ==== Sys2Proof/Config.lean ====
section
/-! DEFINITION. What an implementation of the core fixes (R8, R9), and what the launch of the machine leaves open. -/

namespace Sys2Proof

/-- The implementation parameters: CURSOR_W, at least 2 (R8), and ADDR_W, at least 1 (R9). They are configuration and no state (R42):
no step writes them, and a statement about every machine holds for every choice of them. -/
structure Params where
  /-- CURSOR_W, the width of cursors, CAPACITY, MASK, ARG and VALUE (R8). -/
  cursorW : Nat
  /-- ADDR_W, the width of addresses and POOL_BASE (R9). -/
  addrW : Nat
  /-- `CURSOR_W >= 2` (R8). -/
  two_le_cursorW : 2 ≤ cursorW
  /-- `ADDR_W >= 1` (R9). -/
  one_le_addrW : 1 ≤ addrW
  deriving DecidableEq, Repr

/-- The default values for this hardware: CURSOR_W = ADDR_W = 32 (R8, R9). -/
def Params.default : Params where
  cursorW := 32
  addrW := 32
  two_le_cursorW := by decide
  one_le_addrW := by decide

/-- The byte each address of system memory holds at launch (R42, R55, D31: a launch parameter every claim quantifies over).
A FREE VALUE: it has no body, so no proof can lean on a value of it. DESIGN CHOICE (log 2), safe. -/
opaque Config.launchByte : Nat → BitVec 8

end Sys2Proof
end

