-- ==== Sys2Proof/Word.lean ====
section
/-! DEFINITION. The machine's words: the data unit, cursors, addresses, command and response words, and the names of the
ports and sides. -/

namespace Sys2Proof

/-- The data unit, 8 bits (R11). -/
abbrev Byte := BitVec 8

/-- A value of CURSOR_W bits: cursors, CAPACITY, MASK, ARG and VALUE (R8). -/
abbrev Cursor (p : Params) := BitVec p.cursorW

/-- A system memory address of ADDR_W bits, POOL_BASE among them (R9). -/
abbrev Addr (p : Params) := BitVec p.addrW

/-- The command word: 16 + CURSOR_W + ADDR_W bits (R68). -/
abbrev CmdWord (p : Params) := BitVec (16 + p.cursorW + p.addrW)

/-- The response word, laid out like the command word (R76). -/
abbrev RespWord (p : Params) := BitVec (16 + p.cursorW + p.addrW)

/-- A number as a value of CURSOR_W bits, modulo 2^CURSOR_W. -/
abbrev Params.cursor (p : Params) (n : Nat) : Cursor p := BitVec.ofNat p.cursorW n

/-- A number as an address, modulo 2^ADDR_W. -/
abbrev Params.addr (p : Params) (n : Nat) : Addr p := BitVec.ofNat p.addrW n

/-- The three command ports (R7). -/
inductive Port where
  /-- P, the producer port. -/
  | p
  /-- C, the consumer port. -/
  | c
  /-- K, the control port. -/
  | k
  deriving DecidableEq, Repr

/-- The two sides that own cursors and can ask queries (R18, R70). -/
inductive Side where
  /-- Port P with WC and RC_SYNC. -/
  | producer
  /-- Port C with RC and WC_SYNC. -/
  | consumer
  deriving DecidableEq, Repr

end Sys2Proof
end

