-- ==== Sys2Proof/Syntax.lean ====
section
/-! DEFINITION. The commands of the core, one constructor per row of spec/opcode_table.json (R74). -/

namespace Sys2Proof

/-- A decoded command with the operands R71 gives it. A query also carries the side it is asked on, because the port is part
of the command (R67, R87). An operand is a number, because the width of its field is a parameter (R8, R9): it must fit in the field
(`Instr.wf`), and a meaning reads what the field holds (log 17). -/
inductive Instr where
  /-- INIT (R96): bind the core to the pool at `base` with `size` bytes. -/
  | init (base size : Nat)
  /-- RESET (R115). -/
  | reset
  /-- SIZE (R90). -/
  | size (side : Side)
  /-- USED (R91). -/
  | used (side : Side)
  /-- FREE (R92). -/
  | free (side : Side)
  /-- IS_FULL (R93). -/
  | isFull (side : Side)
  /-- IS_EMPTY (R94). -/
  | isEmpty (side : Side)
  /-- WRITE_ONE (R99). -/
  | writeOne (byte : Byte)
  /-- WRITE_BULK (R103): all `n` payload bytes or none. -/
  | writeBulk (n : Nat) (payload : List Byte)
  /-- WRITE_BULK_TRUNC (R104): as many of the `n` payload bytes as fit. -/
  | writeBulkTrunc (n : Nat) (payload : List Byte)
  /-- LW_REGION (R109). -/
  | lwRegion
  /-- LW_REMAINING (R110). -/
  | lwRemaining
  /-- LW_FINISH (R111). -/
  | lwFinish (n : Nat)
  /-- READ_ONE (R100). -/
  | readOne
  /-- PEEK_ONE (R101). -/
  | peekOne
  /-- READ_BULK (R106): `n` bytes or none. -/
  | readBulk (n : Nat)
  /-- LR_REGION (R112). -/
  | lrRegion
  /-- LR_REMAINING (R113). -/
  | lrRemaining
  /-- LR_FINISH (R114). -/
  | lrFinish (n : Nat)
  deriving DecidableEq, Repr

end Sys2Proof
end

