-- ==== Sys2Proof/WellFormed.lean ====
section
/-! DEFINITION. Which commands are well formed: every operand fits in its field (R68, R71) and a bulk write carries exactly `n`
payload bytes (R73). Port legality holds by the constructors. -/

namespace Sys2Proof

/-- A payload of exactly the bytes that ARG = `n` announces (R73). -/
def payloadFits (p : Params) (n : Nat) (payload : List Byte) : Bool := payload.length == (p.cursor n).toNat

/-- The number fits in ARG. -/
def fitsArg (p : Params) (n : Nat) : Bool := decide (n < 2 ^ p.cursorW)

/-- The number fits in ADDR. -/
def fitsAddr (p : Params) (n : Nat) : Bool := decide (n < 2 ^ p.addrW)

/-- The command spells a transaction the decoder admits (R73, R80). -/
def Instr.wf (p : Params) : Instr → Bool
  | .init base bytes => fitsAddr p base && fitsArg p bytes
  | .reset => true
  | .size _ => true
  | .used _ => true
  | .free _ => true
  | .isFull _ => true
  | .isEmpty _ => true
  | .writeOne _ => true
  | .writeBulk n payload => fitsArg p n && payloadFits p n payload
  | .writeBulkTrunc n payload => fitsArg p n && payloadFits p n payload
  | .lwRegion => true
  | .lwRemaining => true
  | .lwFinish n => fitsArg p n
  | .readOne => true
  | .peekOne => true
  | .readBulk n => fitsArg p n
  | .lrRegion => true
  | .lrRemaining => true
  | .lrFinish n => fitsArg p n

end Sys2Proof
end

