-- ==== Sys2Proof/Decode.lean ====
section
/-! DEFINITION. The command encoding of 30_encoding.md: the fields of the command word, the opcode map, the decoder (total, R80)
and the encoder (R84). Field positions are written for any CURSOR_W and ADDR_W. -/

namespace Sys2Proof

/-! ## The word's fields (R68) -/

/-- OP = CW[7:0]. -/
def fieldOp {w : Nat} (word : BitVec w) : Byte := word.extractLsb' 0 8

/-- DATA = CW[15:8]. -/
def fieldData {w : Nat} (word : BitVec w) : Byte := word.extractLsb' 8 8

/-- ARG = CW[15+CURSOR_W:16]. -/
def fieldArg (cursorW : Nat) {w : Nat} (word : BitVec w) : BitVec cursorW := word.extractLsb' 16 cursorW

/-- ADDR = CW[15+CURSOR_W+ADDR_W:16+CURSOR_W]. -/
def fieldAddr (cursorW addrW : Nat) {w : Nat} (word : BitVec w) : BitVec addrW := word.extractLsb' (16 + cursorW) addrW

/-- ARG at the parameters' widths. -/
def argField {p : Params} (word : CmdWord p) : Cursor p := fieldArg p.cursorW word

/-- ADDR at the parameters' widths. -/
def addrField {p : Params} (word : CmdWord p) : Addr p := fieldAddr p.cursorW p.addrW word

/-- The word with low byte `lo`, second byte `data`, then `arg` and `addr` (R84; the response word of R76 has the same
layout). -/
def packWord {cursorW addrW : Nat} (lo data : Byte) (arg : BitVec cursorW) (addr : BitVec addrW) :
    BitVec (16 + cursorW + addrW) :=
  lo.setWidth _ ||| data.setWidth _ <<< 8 ||| arg.setWidth _ <<< 16 ||| addr.setWidth _ <<< (16 + cursorW)

/-! ## Groups and ports (R69, R70) -/

/-- The four groups of R70. -/
inductive Group where
  | control
  | query
  | producer
  | consumer
  deriving DecidableEq, Repr

/-- GROUP = OP[7:6] (R69, R70). -/
def groupOf (op : Byte) : Group :=
  match (op.extractLsb' 6 2).toNat with
  | 0 => .control
  | 1 => .query
  | 2 => .producer
  | _ => .consumer

/-- Which ports may issue a group's commands (R70). -/
def Group.legalOn : Group → Port → Bool
  | .control, .k => true
  | .query, .p => true
  | .query, .c => true
  | .producer, .p => true
  | .consumer, .c => true
  | _, _ => false

/-- The port that `withFetchWord` and `decodeTableWord` place a group's word on; a query goes to P.
DESIGN CHOICE (log 15), safe: the machine itself never calls it. -/
def Group.homePort : Group → Port
  | .control => .k
  | .query => .p
  | .producer => .p
  | .consumer => .c

/-- The side a port is (R18). Port K has none and no query is legal on it, so its value here is never used. -/
def Port.side : Port → Side
  | .p => .producer
  | .c => .consumer
  | .k => .producer

/-- The port of a side (R18). -/
def Side.port : Side → Port
  | .producer => .p
  | .consumer => .c

/-! ## The opcode map (R74) -/

/-- The nineteen mnemonics of R74. -/
inductive Op where
  | init | reset
  | size | used | free | isFull | isEmpty
  | writeOne | writeBulk | writeBulkTrunc | lwRegion | lwRemaining | lwFinish
  | readOne | peekOne | readBulk | lrRegion | lrRemaining | lrFinish
  deriving DecidableEq, Repr

/-- The operation an OP byte selects; none for an unassigned OP (R74, R75). -/
def Op.ofByte (op : Byte) : Option Op :=
  match op.toNat with
  | 0x01 => some .init
  | 0x02 => some .reset
  | 0x40 => some .size
  | 0x41 => some .used
  | 0x42 => some .free
  | 0x43 => some .isFull
  | 0x44 => some .isEmpty
  | 0x80 => some .writeOne
  | 0x81 => some .writeBulk
  | 0x82 => some .writeBulkTrunc
  | 0x83 => some .lwRegion
  | 0x84 => some .lwRemaining
  | 0x85 => some .lwFinish
  | 0xC0 => some .readOne
  | 0xC1 => some .peekOne
  | 0xC2 => some .readBulk
  | 0xC3 => some .lrRegion
  | 0xC4 => some .lrRemaining
  | 0xC5 => some .lrFinish
  | _ => none

/-- How many payload bytes a command with this OP and ARG carries (R73, R79, the `need` of R80). -/
def payloadNeed {cursorW : Nat} (op : Byte) (arg : BitVec cursorW) : Nat := if op = 0x81 ∨ op = 0x82 then arg.toNat else 0

/-- The command an operation spells with the operands R71 takes from the word; every other field is ignored (R72). -/
def Op.command {p : Params} (port : Port) (word : CmdWord p) (payload : List Byte) : Op → Instr
  | .init => .init (addrField word).toNat (argField word).toNat
  | .reset => .reset
  | .size => .size port.side
  | .used => .used port.side
  | .free => .free port.side
  | .isFull => .isFull port.side
  | .isEmpty => .isEmpty port.side
  | .writeOne => .writeOne (fieldData word)
  | .writeBulk => .writeBulk (argField word).toNat payload
  | .writeBulkTrunc => .writeBulkTrunc (argField word).toNat payload
  | .lwRegion => .lwRegion
  | .lwRemaining => .lwRemaining
  | .lwFinish => .lwFinish (argField word).toNat
  | .readOne => .readOne
  | .peekOne => .peekOne
  | .readBulk => .readBulk (argField word).toNat
  | .lrRegion => .lrRegion
  | .lrRemaining => .lrRemaining
  | .lrFinish => .lrFinish (argField word).toNat

/-! ## The decoder (R80) -/

/-- What the decoder makes of a transaction (R80). -/
inductive Verdict where
  /-- The transaction spells this command. -/
  | command (i : Instr)
  /-- The hardware's verdict: the core answers ILLEGAL (R75). -/
  | illegal
  /-- The model's verdict: the payload has the wrong length, so the transaction spells no command and has no step (R73). -/
  | refused
  deriving DecidableEq, Repr

/-- Decode a command word and payload arriving on a port; the checks stand in R80's order. -/
def decode {p : Params} (port : Port) (word : CmdWord p) (payload : List Byte) : Verdict :=
  match Op.ofByte (fieldOp word) with
  | none => .illegal
  | some op =>
    if (groupOf (fieldOp word)).legalOn port then
      if payload.length = payloadNeed (fieldOp word) (argField word) then .command (op.command port word payload)
      else .refused
    else .illegal

/-! ## The encoder (R84) -/

/-- A command transaction: the port it arrives on, its word and its payload (R67). -/
structure Transaction (p : Params) where
  port : Port
  word : CmdWord p
  payload : List Byte
  deriving DecidableEq, Repr

/-- The port a command is issued on (R70, R74). -/
def Instr.port : Instr → Port
  | .init _ _ => .k
  | .reset => .k
  | .size side => side.port
  | .used side => side.port
  | .free side => side.port
  | .isFull side => side.port
  | .isEmpty side => side.port
  | .writeOne _ => .p
  | .writeBulk _ _ => .p
  | .writeBulkTrunc _ _ => .p
  | .lwRegion => .p
  | .lwRemaining => .p
  | .lwFinish _ => .p
  | .readOne => .c
  | .peekOne => .c
  | .readBulk _ => .c
  | .lrRegion => .c
  | .lrRemaining => .c
  | .lrFinish _ => .c

/-- The command word with the fields the command reads; every other field is 0 (R72, R81, R84). -/
def Instr.word (p : Params) : Instr → CmdWord p
  | .init base bytes => packWord 0x01 0 (p.cursor bytes) (p.addr base)
  | .reset => packWord 0x02 0 (p.cursor 0) (p.addr 0)
  | .size _ => packWord 0x40 0 (p.cursor 0) (p.addr 0)
  | .used _ => packWord 0x41 0 (p.cursor 0) (p.addr 0)
  | .free _ => packWord 0x42 0 (p.cursor 0) (p.addr 0)
  | .isFull _ => packWord 0x43 0 (p.cursor 0) (p.addr 0)
  | .isEmpty _ => packWord 0x44 0 (p.cursor 0) (p.addr 0)
  | .writeOne byte => packWord 0x80 byte (p.cursor 0) (p.addr 0)
  | .writeBulk n _ => packWord 0x81 0 (p.cursor n) (p.addr 0)
  | .writeBulkTrunc n _ => packWord 0x82 0 (p.cursor n) (p.addr 0)
  | .lwRegion => packWord 0x83 0 (p.cursor 0) (p.addr 0)
  | .lwRemaining => packWord 0x84 0 (p.cursor 0) (p.addr 0)
  | .lwFinish n => packWord 0x85 0 (p.cursor n) (p.addr 0)
  | .readOne => packWord 0xC0 0 (p.cursor 0) (p.addr 0)
  | .peekOne => packWord 0xC1 0 (p.cursor 0) (p.addr 0)
  | .readBulk n => packWord 0xC2 0 (p.cursor n) (p.addr 0)
  | .lrRegion => packWord 0xC3 0 (p.cursor 0) (p.addr 0)
  | .lrRemaining => packWord 0xC4 0 (p.cursor 0) (p.addr 0)
  | .lrFinish n => packWord 0xC5 0 (p.cursor n) (p.addr 0)

/-- The payload a command carries: none but for the bulk writes (R73). -/
def Instr.payload : Instr → List Byte
  | .init _ _ => []
  | .reset => []
  | .size _ => []
  | .used _ => []
  | .free _ => []
  | .isFull _ => []
  | .isEmpty _ => []
  | .writeOne _ => []
  | .writeBulk _ payload => payload
  | .writeBulkTrunc _ payload => payload
  | .lwRegion => []
  | .lwRemaining => []
  | .lwFinish _ => []
  | .readOne => []
  | .peekOne => []
  | .readBulk _ => []
  | .lrRegion => []
  | .lrRemaining => []
  | .lrFinish _ => []

/-- The transaction an agent sends for a command (R67, R84). -/
def encode (p : Params) (i : Instr) : Transaction p := { port := i.port, word := i.word p, payload := i.payload }

/-! ## A word of the opcode table -/

/-- The command word whose low `nbits` bits are those of `w` and whose other bits are 0. -/
def tableWord (p : Params) (nbits w : Nat) : CmdWord p := BitVec.ofNat _ (w % 2 ^ nbits)

/-- The port a table word is placed on: its group's (log 15). -/
def tablePort (nbits w : Nat) : Port := (groupOf (BitVec.ofNat 8 (w % 2 ^ nbits))).homePort

/-- What the decoder reads, at the default widths, from a word of spec/opcode_table.json, with no payload, on its group's port. -/
def decodeTableWord (nbits w : Nat) : Option Instr :=
  match decode (tablePort nbits w) (tableWord .default nbits w) [] with
  | .command i => some i
  | .illegal => none
  | .refused => none

end Sys2Proof
end

