-- ==== Sys2Proof/Machine/State.lean ====
section
/-! DEFINITION. The machine's state as plain data: the registers of 10_state.md R21, the model-only state of R37 and R38, system
memory, the responses given and the agent steps still to come; and the state after power-on reset (R43). -/

namespace Sys2Proof.Machine

/-- The status of a response (R77). Codes 6 and 7 are reserved and never produced, so they have no constructor. -/
inductive Status where
  | ok
  | full
  | empty
  | configError
  | illegal
  | notConfigured
  deriving DecidableEq, Repr

/-- A response: the fields of the response word (R76) and the payload of READ_BULK (R67). A field a command does not set is 0. -/
structure Response (p : Params) where
  status : Status
  rdata : Byte := 0
  value : Cursor p := 0
  raddr : Addr p := 0
  payload : List Byte := []
  deriving DecidableEq, Repr

/-- The model-fault kinds of R128. Each only records that a caller broke the source's contract; none stops the machine
(R15, R129). -/
inductive ModelFault where
  /-- 1: LW_FINISH with `n` beyond the window. -/
  | lwFinishBeyondRegion
  /-- 2: LW_FINISH with `n` beyond `free_P`. -/
  | lwFinishBeyondFree
  /-- 3: LR_FINISH with `n` beyond the window. -/
  | lrFinishBeyondRegion
  /-- 4: LR_FINISH with `n` beyond `used_C`. -/
  | lrFinishBeyondUsed
  /-- 5: RESET while a window is open. -/
  | resetWithOpenWindow
  /-- 6: INIT while a window is open. -/
  | initWithOpenWindow
  /-- 7: EXT_WRITE to a committed storage byte while configured. -/
  | extWriteCommitted
  deriving DecidableEq, Repr

/-- One step an agent outside the core may take (R7, R49, R82, R141). -/
inductive AgentStep (p : Params) where
  /-- A command transaction arriving on a port (R67). -/
  | command (port : Port) (word : CmdWord p) (payload : List Byte)
  /-- SYNC R2P: the crossing X_R2P (R118). -/
  | crossR2P
  /-- SYNC W2C: the crossing X_W2C (R119). -/
  | crossW2C
  /-- EXT_WRITE(a, v) (R49). -/
  | extWrite (a : Addr p) (v : Byte)
  /-- EXT_READ(a) (R49). -/
  | extRead (a : Addr p)
  /-- Power-on reset, a hardware event (R141). -/
  | powerOn
  deriving DecidableEq, Repr

/-- What can stop the machine: nothing. The core raises no trap, exception or interrupt and every condition a command meets
ends in a response status (R123, R132), so there is no constructor and nobody raises a fault (log 14). -/
inductive Fault where
  deriving DecidableEq, Repr

/-- Why the model has no step. -/
inductive Refusal where
  /-- Raised only by an arm of `exec` for a command that has no meaning yet. Safe: the model stops. -/
  | notModelled (mnemonic : String)
  /-- Raised by the port step and by the two bulk writes when the payload is not exactly the bytes R73 requires: the transaction
  spells no command and has no step (R73, R80). Safe: no claim speaks of such a transaction (log 7). -/
  | payloadLength
  /-- Raised by the step of a crossing agent whose copy already equals its cursor: the crossing is not enabled and has no step (R118,
  R119). The machine's step never raises it, because it passes such a crossing over. Safe: there is no such step (log 5). -/
  | crossingNotEnabled
  deriving DecidableEq, Repr

/-- The core, its memory and its agents, at given widths. -/
structure Fifo (p : Params) where
  /-- CONFIGURED (R25). -/
  configured : Bool
  /-- POOL_BASE (R24). -/
  poolBase : Addr p
  /-- CAPACITY (R22). -/
  capacity : Cursor p
  /-- MASK (R23). -/
  mask : Cursor p
  /-- WC, the write cursor (R26). -/
  wc : Cursor p
  /-- RC, the read cursor (R27). -/
  rc : Cursor p
  /-- RC_SYNC, the producer side's copy of RC (R28). -/
  rcSync : Cursor p
  /-- WC_SYNC, the consumer side's copy of WC (R29). -/
  wcSync : Cursor p
  /-- LW_OPEN, model-only (R37). -/
  lwOpen : Bool
  /-- LR_OPEN, model-only (R37). -/
  lrOpen : Bool
  /-- FAULTS, model-only (R38): the kinds recorded, in rising code order (log 11). -/
  faults : List ModelFault
  /-- Mem (R40): the bytes written since launch, by rising address. An address not listed holds its launch byte (log 2). -/
  mem : List Host.Cell
  /-- The agent steps still to come, oldest first: the schedule (R121, log 3). -/
  inputs : List (AgentStep p)
  /-- The responses port P has been given, oldest first (R153, log 6). -/
  respP : List (Response p)
  /-- The responses port C has been given, oldest first. -/
  respC : List (Response p)
  /-- The responses port K has been given, oldest first. -/
  respK : List (Response p)
  /-- The bytes EXT_READ has returned to EXT, oldest first (R49, log 6). -/
  extReads : List Byte
  deriving DecidableEq, Repr

/-- The machine: its widths and, at those widths, everything that changes. `params` is configuration and no state of the core (R42); it
stands here because the host's step takes one argument, and no step writes it (log 1). -/
structure State where
  params : Params
  fifo : Fifo params
  deriving DecidableEq, Repr

/-- The machine after power-on reset, at launch (R43, R141): every register 0, no window open, FAULTS empty, nothing written to
memory, no response given and no agent step waiting. -/
def Fifo.reset (p : Params) : Fifo p where
  configured := false
  poolBase := 0
  capacity := 0
  mask := 0
  wc := 0
  rc := 0
  rcSync := 0
  wcSync := 0
  lwOpen := false
  lrOpen := false
  faults := []
  mem := []
  inputs := []
  respP := []
  respC := []
  respK := []
  extReads := []

/-- The machine after power-on reset, at the default widths (R8, R9, R43). -/
def State.reset : State where
  params := .default
  fifo := .reset .default

end Sys2Proof.Machine
end

