-- ==== Sys2Proof/Machine/Ops.lean ====
section
/-! DEFINITION. The shared operations: memory (R47), the registers, the model-fault record (R15, R38, R128) and the response
(R15, R76, R77). There is no exception entry and no return from one: the core has neither (R123, R132, R133); a command that
fails answers a status. -/

namespace Sys2Proof.Machine

variable {p : Params}

/-! ## Memory (R40, R47) -/

/-- The byte listed at an address, if one has been written since launch. -/
def Memory.find? : List Host.Cell → Nat → Option Byte
  | [], _ => none
  | (k, v) :: cells, a => if a = k then some v else Memory.find? cells a

/-- Write one byte, keeping the addresses strictly rising. -/
def Memory.insert : List Host.Cell → Nat → Byte → List Host.Cell
  | [], a, v => [(a, v)]
  | (k, u) :: cells, a, v =>
    if a < k then (a, v) :: (k, u) :: cells
    else if a = k then (a, v) :: cells
    else (k, u) :: Memory.insert cells a v

/-- The canonical form of memory: addresses strictly rising, each inside the address space (R40). An unlisted address reads
as no written byte, which no entry equals. -/
abbrev Memory.wf (p : Params) (cells : List Host.Cell) : Prop :=
  cells.Pairwise (fun x y => x.1 < y.1) ∧ ∀ x ∈ cells, x.1 < 2 ^ p.addrW

/-- The byte memory holds at an address: the last one written there, else the launch byte (R47, R57; log 2). -/
def Memory.read (cells : List Host.Cell) (a : Nat) : Byte := (Memory.find? cells a).getD (Config.launchByte a)

/-- `MemRead(a, 1)` (R47). -/
def Fifo.memRead (s : Fifo p) (a : Addr p) : Byte := Memory.read s.mem a.toNat

/-- `MemWrite(a, 1, v)` (R47). -/
def Fifo.memWrite (s : Fifo p) (a : Addr p) (v : Byte) : Fifo p := { s with mem := Memory.insert s.mem a.toNat v }

/-! ## Registers (R21) -/

/-- `x[WC] <- c`. -/
def Fifo.setWc (s : Fifo p) (c : Cursor p) : Fifo p := { s with wc := c }

/-- `x[RC] <- c`. -/
def Fifo.setRc (s : Fifo p) (c : Cursor p) : Fifo p := { s with rc := c }

/-- `x[RC_SYNC] <- c`. -/
def Fifo.setRcSync (s : Fifo p) (c : Cursor p) : Fifo p := { s with rcSync := c }

/-- `x[WC_SYNC] <- c`. -/
def Fifo.setWcSync (s : Fifo p) (c : Cursor p) : Fifo p := { s with wcSync := c }

/-- The four cursors zeroed in one step (R96, R115, R120). -/
def Fifo.zeroCursors (s : Fifo p) : Fifo p := { s with wc := 0, rc := 0, rcSync := 0, wcSync := 0 }

/-- `x[POOL_BASE]`, `x[CAPACITY]` and `x[MASK]` written together (R23, R96). -/
def Fifo.bind (s : Fifo p) (base : Addr p) (size : Cursor p) : Fifo p :=
  { s with poolBase := base, capacity := size, mask := size - 1 }

/-- `x[CONFIGURED] <- b`. -/
def Fifo.setConfigured (s : Fifo p) (b : Bool) : Fifo p := { s with configured := b }

/-- `x[LW_OPEN] <- b` (R37). -/
def Fifo.setLwOpen (s : Fifo p) (b : Bool) : Fifo p := { s with lwOpen := b }

/-- `x[LR_OPEN] <- b` (R37). -/
def Fifo.setLrOpen (s : Fifo p) (b : Bool) : Fifo p := { s with lrOpen := b }

/-- Both window flags to 0 (R96, R115). -/
def Fifo.closeWindows (s : Fifo p) : Fifo p := { s with lwOpen := false, lrOpen := false }

/-- A window of either side is open (R96, R115). -/
def Fifo.windowOpen (s : Fifo p) : Bool := s.lwOpen || s.lrOpen

/-! ## Model faults (R15, R38, R128) -/

/-- The code of a kind (R128). -/
def ModelFault.code : ModelFault → Nat
  | .lwFinishBeyondRegion => 1
  | .lwFinishBeyondFree => 2
  | .lrFinishBeyondRegion => 3
  | .lrFinishBeyondUsed => 4
  | .resetWithOpenWindow => 5
  | .initWithOpenWindow => 6
  | .extWriteCommitted => 7

/-- Add a kind to the set, in code order; a kind already there is not added again. -/
def FaultSet.add (kind : ModelFault) : List ModelFault → List ModelFault
  | [] => [kind]
  | k :: ks =>
    if kind = k then k :: ks
    else if kind.code < k.code then kind :: k :: ks
    else k :: FaultSet.add kind ks

/-- The canonical form of FAULTS: codes strictly rising. -/
abbrev FaultSet.wf (kinds : List ModelFault) : Prop := kinds.Pairwise (fun x y => x.code < y.code)

/-- `raise ModelFault(kind)`: record the kind and go on (R15). -/
def Fifo.raise (s : Fifo p) (kind : ModelFault) : Fifo p := { s with faults := FaultSet.add kind s.faults }

/-- Record the kind if the condition holds. -/
def Fifo.raiseIf (s : Fifo p) (condition : Bool) (kind : ModelFault) : Fifo p :=
  if condition then s.raise kind else s

/-! ## Responses (R15, R76, R77) -/

/-- The code of a status (R77). -/
def Status.code : Status → BitVec 3
  | .ok => 0
  | .full => 1
  | .empty => 2
  | .configError => 3
  | .illegal => 4
  | .notConfigured => 5

/-- The response word: STATUS, five zero bits, RDATA, VALUE, RADDR (R76). -/
def Response.word (r : Response p) : RespWord p := packWord (r.status.code.setWidth 8) r.rdata r.value r.raddr

/-- End a command with a response to the port that issued it, and to no other (R15, R123). -/
def Fifo.respond (s : Fifo p) (port : Port) (r : Response p) : Fifo p :=
  match port with
  | .p => { s with respP := s.respP ++ [r] }
  | .c => { s with respC := s.respC ++ [r] }
  | .k => { s with respK := s.respK ++ [r] }

/-- The responses a port has been given. -/
def Fifo.responses (s : Fifo p) : Port → List (Response p)
  | .p => s.respP
  | .c => s.respC
  | .k => s.respK

/-- The gate of R25 and R88: while CONFIGURED is 0 the command answers NOT_CONFIGURED and changes nothing; else it runs to
`done`. -/
def Fifo.whenConfigured (s : Fifo p) (port : Port) (done : Fifo p) : Fifo p :=
  if s.configured then done else s.respond port { status := .notConfigured }

/-- A next state of the machine, at the same widths. -/
def State.next (s : State) (t : Fifo s.params) : Host.Outcome State Fault Refusal := .next { params := s.params, fifo := t }

end Sys2Proof.Machine
end

