-- ==== Sys2Proof/Machine/Operands.lean ====
section
/-! DEFINITION. The derived functions of R16 and R17, the legality of a configuration (R95) and the ownership of storage bytes
(R50). The arithmetic is written once for any CURSOR_W and ADDR_W (R8, R9, R14) and then read off the state's registers. -/

namespace Sys2Proof.Machine

/-! ## The arithmetic, at any width -/

/-- `off(c) = c & x[MASK]`. -/
def offOf {cursorW : Nat} (mask c : BitVec cursorW) : BitVec cursorW := c &&& mask

/-- `saddr(c) = x[POOL_BASE] +_A zext_ADDR_W(off(c))` (R16, R48). -/
def saddrOf {cursorW addrW : Nat} (base : BitVec addrW) (mask c : BitVec cursorW) : BitVec addrW :=
  base + (offOf mask c).setWidth addrW

/-- Occupancy: the plain modular difference of the write and the read cursor of a view, with no mask (R16, R91, C1). -/
def usedOf {cursorW : Nat} (write read : BitVec cursorW) : BitVec cursorW := write - read

/-- Free space: `CAPACITY -_W used`. -/
def freeOf {cursorW : Nat} (capacity write read : BitVec cursorW) : BitVec cursorW := capacity - usedOf write read

/-- The run from a cursor's offset to the end of storage: `CAPACITY -_W off(c)`. -/
def remainOf {cursorW : Nat} (capacity mask c : BitVec cursorW) : BitVec cursorW := capacity - offOf mask c

/-- `min(a, b)` of two unsigned values (R14). -/
def minOf {cursorW : Nat} (a b : BitVec cursorW) : BitVec cursorW := if a ≤ b then a else b

/-- A cursor value `c` lies in the half-open range `[a, b)` (R17). -/
def inRange {cursorW : Nat} (c a b : BitVec cursorW) : Bool := decide (c - a < b - a)

/-- The legal configurations of R95: a pool that is not null, a size that is a power of two, and a region that does not wrap
the address space. -/
def legalConfig {addrW cursorW : Nat} (base : BitVec addrW) (size : BitVec cursorW) : Bool :=
  decide (base ≠ 0) && decide (size ≠ 0) && decide (size &&& (size - 1) = 0) &&
    decide (base.toNat + size.toNat ≤ 2 ^ addrW)

variable {p : Params}

/-! ## The state's derived values (R16) -/

/-- `off(c)`. -/
def Fifo.off (s : Fifo p) (c : Cursor p) : Cursor p := offOf s.mask c

/-- `saddr(c)`. -/
def Fifo.saddr (s : Fifo p) (c : Cursor p) : Addr p := saddrOf s.poolBase s.mask c

/-- `used_P`. -/
def Fifo.usedP (s : Fifo p) : Cursor p := usedOf s.wc s.rcSync

/-- `free_P`. -/
def Fifo.freeP (s : Fifo p) : Cursor p := freeOf s.capacity s.wc s.rcSync

/-- `used_C`. -/
def Fifo.usedC (s : Fifo p) : Cursor p := usedOf s.wcSync s.rc

/-- `free_C`. -/
def Fifo.freeC (s : Fifo p) : Cursor p := freeOf s.capacity s.wcSync s.rc

/-- `used_true`. -/
def Fifo.usedTrue (s : Fifo p) : Cursor p := usedOf s.wc s.rc

/-- `remain_in`. -/
def Fifo.remainIn (s : Fifo p) : Cursor p := remainOf s.capacity s.mask s.wc

/-- `remain_out`. -/
def Fifo.remainOut (s : Fifo p) : Cursor p := remainOf s.capacity s.mask s.rc

/-- Occupancy in a side's view (R16, R87). -/
def Fifo.usedOn (s : Fifo p) : Side → Cursor p
  | .producer => s.usedP
  | .consumer => s.usedC

/-- Free space in a side's view (R16, R87). -/
def Fifo.freeOn (s : Fifo p) : Side → Cursor p
  | .producer => s.freeP
  | .consumer => s.freeC

/-! ## Storage and its ownership (R41, R50) -/

/-- The address is a storage address: `POOL_BASE +_A j` with `j < CAPACITY` (R41). -/
def Fifo.inStorage (s : Fifo p) (a : Addr p) : Bool := decide ((a - s.poolBase).toNat < s.capacity.toNat)

/-- The first cursor value at or after RC whose storage byte is at address `a`. -/
def Fifo.cursorAt (s : Fifo p) (a : Addr p) : Cursor p :=
  s.rc + offOf s.mask ((a - s.poolBase).setWidth p.cursorW - s.rc)

/-- A storage byte is committed when its cursor value lies in `[RC, WC)` (R50, R51). It is enough to look at the first cursor
value of that byte from RC on (log 9, DEDUCED). -/
def Fifo.committed (s : Fifo p) (a : Addr p) : Bool := s.inStorage a && inRange (s.cursorAt a) s.rc s.wc

end Sys2Proof.Machine
end

