-- ==== Sys2Proof/Machine/Bulk.lean ====
section
/-! DEFINITION. Bulk transfer (43_bulk.md, R102 to R106). -/

namespace Sys2Proof.Machine

variable {p : Params}

/-! ## The copies, in cursor order (R45, R65) -/

/-- Storage <- the bytes, the first at `saddr(c)`, the next at `saddr(c +_W 1)`, and so on (R65). For no more than CAPACITY
bytes this is the split copy of R102 (log 8). -/
def Fifo.copyIn (s : Fifo p) (c : Cursor p) : List Byte → Fifo p
  | [] => s
  | byte :: bytes => Fifo.copyIn (s.memWrite (s.saddr c) byte) (c + 1) bytes

/-- The `k` storage bytes from cursor `c` on, in cursor order (R65). -/
def Fifo.copyOut (s : Fifo p) (c : Cursor p) : Nat → List Byte
  | 0 => []
  | k + 1 => s.memRead (s.saddr c) :: Fifo.copyOut s (c + 1) k

/-! ## The copies as R102 writes them, in at most two passes -/

/-- Write the bytes at `a`, `a +_A 1`, and so on. -/
def Fifo.writeRun (s : Fifo p) (a : Addr p) : List Byte → Fifo p
  | [] => s
  | byte :: bytes => Fifo.writeRun (s.memWrite a byte) (a + 1) bytes

/-- Read `k` bytes from `a`, `a +_A 1`, and so on. -/
def Fifo.readRun (s : Fifo p) (a : Addr p) : Nat → List Byte
  | 0 => []
  | k + 1 => s.memRead a :: Fifo.readRun s (a + 1) k

/-- `copy_in(c, k, payload)` of R102: the tail of storage, then its head. -/
def Fifo.splitCopyIn (s : Fifo p) (c : Cursor p) (bytes : List Byte) : Fifo p :=
  let remain := (remainOf s.capacity s.mask c).toNat
  if bytes.length ≤ remain then s.writeRun (s.saddr c) bytes
  else (s.writeRun (s.saddr c) (bytes.take remain)).writeRun s.poolBase (bytes.drop remain)

/-- `copy_out(c, k)` of R102. -/
def Fifo.splitCopyOut (s : Fifo p) (c : Cursor p) (k : Nat) : List Byte :=
  let remain := (remainOf s.capacity s.mask c).toNat
  if k ≤ remain then s.readRun (s.saddr c) k
  else s.readRun (s.saddr c) remain ++ s.readRun s.poolBase (k - remain)

/-! ## The commands -/

/-- A producer's bulk transfer of the first `k` payload bytes: copy, advance WC, answer OK with the count (R103, R104). -/
def Fifo.writeBytes (s : Fifo p) (k : Cursor p) (payload : List Byte) : Fifo p :=
  ((s.copyIn s.wc (payload.take k.toNat)).setWc (s.wc + k)).respond .p { status := .ok, value := k }

/-- What WRITE_BULK does on a configured core (R103): all `n` bytes, or FULL and nothing. -/
def Fifo.writeBulk (s : Fifo p) (n : Cursor p) (payload : List Byte) : Fifo p :=
  if s.freeP < n then s.respond .p { status := .full } else s.writeBytes n payload

/-- WRITE_BULK (R103). A payload of another length than ARG announces spells no command and is refused (R73, log 7). -/
def execWriteBulk (n : Nat) (payload : List Byte) (s : State) : Host.Outcome State Fault Refusal :=
  if payloadFits s.params n payload then
    s.next (s.fifo.whenConfigured .p (s.fifo.writeBulk (s.params.cursor n) payload))
  else .refused .payloadLength

/-- WRITE_BULK_TRUNC (R104): the first min(n, free) bytes. A payload of another length than ARG announces spells no command and is
refused (R73, log 7). -/
def execWriteBulkTrunc (n : Nat) (payload : List Byte) (s : State) : Host.Outcome State Fault Refusal :=
  if payloadFits s.params n payload then
    s.next (s.fifo.whenConfigured .p (s.fifo.writeBytes (minOf (s.params.cursor n) s.fifo.freeP) payload))
  else .refused .payloadLength

/-- What READ_BULK does on a configured core (R106): `n` bytes, or EMPTY and nothing. -/
def Fifo.readBulk (s : Fifo p) (n : Cursor p) : Fifo p :=
  if s.usedC < n then s.respond .c { status := .empty }
  else (s.setRc (s.rc + n)).respond .c { status := .ok, value := n, payload := s.copyOut s.rc n.toNat }

/-- READ_BULK (R106). -/
def execReadBulk (n : Nat) (s : State) : Host.Outcome State Fault Refusal :=
  s.next (s.fifo.whenConfigured .c (s.fifo.readBulk (s.params.cursor n)))

end Sys2Proof.Machine
end

