-- ==== Sys2Proof/Machine/Control.lean ====
section
/-! DEFINITION. The commands of port K: INIT (41_init.md) and RESET (45_reset.md). -/

namespace Sys2Proof.Machine

variable {p : Params}

/-- The open-window check of INIT and RESET: record `kind` if a window of either side is open, and close both (R96, R115). -/
def Fifo.abandonWindows (s : Fifo p) (kind : ModelFault) : Fifo p := (s.raiseIf s.windowOpen kind).closeWindows

/-- What INIT does (R96): bind the core on a configuration that is legal by R95, or leave it unconfigured. -/
def Fifo.init (s : Fifo p) (base : Addr p) (size : Cursor p) : Fifo p :=
  if legalConfig base size then
    ((((s.abandonWindows .initWithOpenWindow).bind base size).zeroCursors.setConfigured true).respond .k { status := .ok })
  else
    ((s.abandonWindows .initWithOpenWindow).setConfigured false).respond .k { status := .configError }

/-- INIT (R96), the one command CONFIGURED = 0 does not block. -/
def execInit (base size : Nat) (s : State) : Host.Outcome State Fault Refusal :=
  s.next (s.fifo.init (s.params.addr base) (s.params.cursor size))

/-- RESET (R115). -/
def execReset (s : State) : Host.Outcome State Fault Refusal :=
  s.next (s.fifo.whenConfigured .k
    ((s.fifo.abandonWindows .resetWithOpenWindow).zeroCursors.respond .k { status := .ok }))

end Sys2Proof.Machine
end

