-- ==== Sys2Proof/Machine/Linear.lean ====
section
/-! DEFINITION. Zero-copy linear access (44_linear.md, R107 to R114): the window's address and length, and its commit. -/

namespace Sys2Proof.Machine

variable {p : Params}

/-- What a REGION command answers for a cursor: the run of storage from its offset to the end (R107, R109, R112). -/
def Fifo.windowAt (s : Fifo p) (c : Cursor p) : Response p :=
  { status := .ok, value := remainOf s.capacity s.mask c, raddr := s.saddr c }

/-- LW_REGION (R109). -/
def execLwRegion (s : State) : Host.Outcome State Fault Refusal :=
  s.next (s.fifo.whenConfigured .p ((s.fifo.setLwOpen true).respond .p (s.fifo.windowAt s.fifo.wc)))

/-- LW_REMAINING (R110). -/
def execLwRemaining (s : State) : Host.Outcome State Fault Refusal :=
  s.next (s.fifo.whenConfigured .p (s.fifo.respond .p { status := .ok, value := s.fifo.remainIn }))

/-- The duties of LW_FINISH (R108, R111): `n` within the window, and within the free space. -/
def Fifo.checkLwFinish (s : Fifo p) (n : Cursor p) : Fifo p :=
  (s.raiseIf (decide (s.remainIn < n)) .lwFinishBeyondRegion).raiseIf (decide (s.freeP < n)) .lwFinishBeyondFree

/-- LW_FINISH (R111): WC advances by `n` unchecked; a broken duty is recorded (R108). -/
def execLwFinish (n : Nat) (s : State) : Host.Outcome State Fault Refusal :=
  s.next (s.fifo.whenConfigured .p
    ((((s.fifo.checkLwFinish (s.params.cursor n)).setWc (s.fifo.wc + s.params.cursor n)).setLwOpen false).respond .p
      { status := .ok }))

/-- LR_REGION (R112). -/
def execLrRegion (s : State) : Host.Outcome State Fault Refusal :=
  s.next (s.fifo.whenConfigured .c ((s.fifo.setLrOpen true).respond .c (s.fifo.windowAt s.fifo.rc)))

/-- LR_REMAINING (R113). -/
def execLrRemaining (s : State) : Host.Outcome State Fault Refusal :=
  s.next (s.fifo.whenConfigured .c (s.fifo.respond .c { status := .ok, value := s.fifo.remainOut }))

/-- The duties of LR_FINISH (R108, R114): `n` within the window, and within the occupancy. -/
def Fifo.checkLrFinish (s : Fifo p) (n : Cursor p) : Fifo p :=
  (s.raiseIf (decide (s.remainOut < n)) .lrFinishBeyondRegion).raiseIf (decide (s.usedC < n)) .lrFinishBeyondUsed

/-- LR_FINISH (R114): RC advances by `n` unchecked; a broken duty is recorded (R108). -/
def execLrFinish (n : Nat) (s : State) : Host.Outcome State Fault Refusal :=
  s.next (s.fifo.whenConfigured .c
    ((((s.fifo.checkLrFinish (s.params.cursor n)).setRc (s.fifo.rc + s.params.cursor n)).setLrOpen false).respond .c
      { status := .ok }))

end Sys2Proof.Machine
end

