-- ==== Sys2Proof/Machine/Flags.lean ====
section
/-! DEFINITION. The level outputs of R33 and R34, a pure function of the registers: nothing writes a flag (R35). -/

namespace Sys2Proof.Machine

variable {p : Params}

/-- The four outputs of one side: P_USED, P_FREE, P_FULL, P_EMPTY or their C counterparts (R33). -/
structure FlagOutputs (p : Params) where
  used : Cursor p
  free : Cursor p
  full : Bool
  empty : Bool
  deriving DecidableEq, Repr

/-- `is_full()` in a side's view (R33, R93). -/
def Fifo.fullOn (s : Fifo p) (side : Side) : Bool := s.freeOn side == 0

/-- `is_empty()` in a side's view (R33, R94). -/
def Fifo.emptyOn (s : Fifo p) (side : Side) : Bool := s.usedOn side == 0

/-- What a side's outputs show: its view while CONFIGURED is 1 (R33), the forced values while it is 0 (R34). -/
def Fifo.flags (s : Fifo p) (side : Side) : FlagOutputs p :=
  if s.configured then
    { used := s.usedOn side, free := s.freeOn side, full := s.fullOn side, empty := s.emptyOn side }
  else { used := 0, free := 0, full := true, empty := true }

/-- A Boolean as a VALUE: 1 for true, 0 for false (R78). -/
def boolValue (b : Bool) : Cursor p := if b then 1 else 0

end Sys2Proof.Machine
end

