-- ==== Sys2Proof/Machine/Query.lean ====
section
/-! DEFINITION. The five queries (40_query.md, R89 to R94). -/

namespace Sys2Proof.Machine

variable {p : Params}

/-- A query answers OK with one value on the port of its side and writes nothing (R89). -/
def Fifo.answerQuery (s : Fifo p) (side : Side) (value : Cursor p) : Fifo p :=
  s.whenConfigured side.port (s.respond side.port { status := .ok, value := value })

/-- SIZE (R90). -/
def execSize (side : Side) (s : State) : Host.Outcome State Fault Refusal :=
  s.next (s.fifo.answerQuery side s.fifo.capacity)

/-- USED (R91). -/
def execUsed (side : Side) (s : State) : Host.Outcome State Fault Refusal :=
  s.next (s.fifo.answerQuery side (s.fifo.usedOn side))

/-- FREE (R92). -/
def execFree (side : Side) (s : State) : Host.Outcome State Fault Refusal :=
  s.next (s.fifo.answerQuery side (s.fifo.freeOn side))

/-- IS_FULL (R93). -/
def execIsFull (side : Side) (s : State) : Host.Outcome State Fault Refusal :=
  s.next (s.fifo.answerQuery side (boolValue (s.fifo.fullOn side)))

/-- IS_EMPTY (R94). -/
def execIsEmpty (side : Side) (s : State) : Host.Outcome State Fault Refusal :=
  s.next (s.fifo.answerQuery side (boolValue (s.fifo.emptyOn side)))

end Sys2Proof.Machine
end

