-- ==== Sys2Proof/Machine/Single.lean ====
section
/-! DEFINITION. Single-unit transfer (42_single.md, R98 to R101). -/

namespace Sys2Proof.Machine

variable {p : Params}

/-- What WRITE_ONE does on a configured core (R99): FULL, or store the byte and advance WC. -/
def Fifo.writeOne (s : Fifo p) (byte : Byte) : Fifo p :=
  if s.fullOn .producer then s.respond .p { status := .full }
  else ((s.memWrite (s.saddr s.wc) byte).setWc (s.wc + 1)).respond .p { status := .ok, value := 1 }

/-- WRITE_ONE (R99). -/
def execWriteOne (byte : Byte) (s : State) : Host.Outcome State Fault Refusal :=
  s.next (s.fifo.whenConfigured .p (s.fifo.writeOne byte))

/-- What READ_ONE and PEEK_ONE answer on a configured core: the byte at RC, or EMPTY (R100, R101). -/
def Fifo.frontResponse (s : Fifo p) : Response p :=
  if s.emptyOn .consumer then { status := .empty }
  else { status := .ok, value := 1, rdata := s.memRead (s.saddr s.rc) }

/-- What READ_ONE does on a configured core (R100): EMPTY, or the byte, with RC advanced. -/
def Fifo.readOne (s : Fifo p) : Fifo p :=
  if s.emptyOn .consumer then s.respond .c s.frontResponse else (s.setRc (s.rc + 1)).respond .c s.frontResponse

/-- READ_ONE (R100). -/
def execReadOne (s : State) : Host.Outcome State Fault Refusal := s.next (s.fifo.whenConfigured .c s.fifo.readOne)

/-- PEEK_ONE (R101): the same answer, RC unchanged. -/
def execPeekOne (s : State) : Host.Outcome State Fault Refusal :=
  s.next (s.fifo.whenConfigured .c (s.fifo.respond .c s.fifo.frontResponse))

end Sys2Proof.Machine
end

