-- ==== Sys2Proof/Machine/Dispatch.lean ====
section
/-! DEFINITION. One arm per command; each meaning applies the CONFIGURED gate of R88 itself. -/

namespace Sys2Proof.Machine

def exec (i : Instr) (s : State) : Host.Outcome State Fault Refusal :=
  match i with
  | .init base size => Sys2Proof.Machine.execInit base size s
  | .reset => Sys2Proof.Machine.execReset s
  | .size side => Sys2Proof.Machine.execSize side s
  | .used side => Sys2Proof.Machine.execUsed side s
  | .free side => Sys2Proof.Machine.execFree side s
  | .isFull side => Sys2Proof.Machine.execIsFull side s
  | .isEmpty side => Sys2Proof.Machine.execIsEmpty side s
  | .writeOne byte => Sys2Proof.Machine.execWriteOne byte s
  | .writeBulk n payload => Sys2Proof.Machine.execWriteBulk n payload s
  | .writeBulkTrunc n payload => Sys2Proof.Machine.execWriteBulkTrunc n payload s
  | .lwRegion => Sys2Proof.Machine.execLwRegion s
  | .lwRemaining => Sys2Proof.Machine.execLwRemaining s
  | .lwFinish n => Sys2Proof.Machine.execLwFinish n s
  | .readOne => Sys2Proof.Machine.execReadOne s
  | .peekOne => Sys2Proof.Machine.execPeekOne s
  | .readBulk n => Sys2Proof.Machine.execReadBulk n s
  | .lrRegion => Sys2Proof.Machine.execLrRegion s
  | .lrRemaining => Sys2Proof.Machine.execLrRemaining s
  | .lrFinish n => Sys2Proof.Machine.execLrFinish n s

end Sys2Proof.Machine
end

