-- ==== Sys2Proof/Machine/Agents.lean ====
section
/-! DEFINITION. One step of each agent: the ports (R88), the crossings (46_crossing.md), the external bus master
(20_memory.md R49 to R52) and power-on reset (R141). -/

namespace Sys2Proof.Machine

variable {p : Params}

/-! ## The ports -/

/-- A transaction on a port (R88): decode it, answer ILLEGAL, refuse it, or run its command. -/
def portStep (s : State) (port : Port) (word : CmdWord s.params) (payload : List Byte) : Host.Outcome State Fault Refusal :=
  match decode port word payload with
  | .command i => exec i s
  | .illegal => s.next (s.fifo.respond port { status := .illegal })
  | .refused => .refused .payloadLength

/-! ## The crossings (R117 to R119) -/

/-- X_R2P is enabled (R118). -/
def Fifo.r2pEnabled (s : Fifo p) : Bool := s.rcSync != s.rc

/-- X_W2C is enabled (R119). -/
def Fifo.w2cEnabled (s : Fifo p) : Bool := s.wcSync != s.wc

/-- X_R2P (R118): the whole current RC into RC_SYNC. -/
def Fifo.crossR2P (s : Fifo p) : Fifo p := s.setRcSync s.rc

/-- X_W2C (R119): the whole current WC into WC_SYNC. -/
def Fifo.crossW2C (s : Fifo p) : Fifo p := s.setWcSync s.wc

/-- A crossing has a step only while it is enabled (R118, R119). -/
def crossingStep (s : State) (enabled : Bool) (done : Fifo s.params) : Host.Outcome State Fault Refusal :=
  if enabled then s.next done else .refused .crossingNotEnabled

/-! ## The external bus master (R49 to R52, R66) -/

/-- EXT_WRITE (R49, R51): the write always happens; a write to a committed byte while configured is recorded. -/
def Fifo.extWrite (s : Fifo p) (a : Addr p) (v : Byte) : Fifo p :=
  (s.memWrite a v).raiseIf (s.configured && s.committed a) .extWriteCommitted

/-- EXT_READ (R49, R52): EXT is given the byte memory holds, and nothing else happens. -/
def Fifo.extRead (s : Fifo p) (a : Addr p) : Fifo p := { s with extReads := s.extReads ++ [s.memRead a] }

/-! ## Power-on reset (R141) -/

/-- Power-on reset while a launch is under way: every register of R43 to 0 and both windows closed; FAULTS stays, because
nothing removes from it once a launch has begun (R38); memory stays (R44). What the agents have seen and still mean to do is
outside the core and stays (log 10, DEDUCED). -/
def Fifo.powerOn (s : Fifo p) : Fifo p :=
  { s with
    configured := false, poolBase := 0, capacity := 0, mask := 0, wc := 0, rc := 0, rcSync := 0, wcSync := 0,
    lwOpen := false, lrOpen := false }

/-! ## One agent step -/

/-- The step of whichever agent moves (R7, R131). -/
def agentStep (s : State) (move : AgentStep s.params) : Host.Outcome State Fault Refusal :=
  match move with
  | .command port word payload => portStep s port word payload
  | .crossR2P => crossingStep s s.fifo.r2pEnabled s.fifo.crossR2P
  | .crossW2C => crossingStep s s.fifo.w2cEnabled s.fifo.crossW2C
  | .extWrite a v => s.next (s.fifo.extWrite a v)
  | .extRead a => s.next (s.fifo.extRead a)
  | .powerOn => s.next s.fifo.powerOn

/-- The agent step that issues a command on its port (R67, R84). -/
def issue (p : Params) (i : Instr) : AgentStep p := .command (encode p i).port (encode p i).word (encode p i).payload

/-- The agent step is enabled: a crossing while its copy differs from its cursor (R118, R119), any other always. -/
def Fifo.enables (s : Fifo p) : AgentStep p → Bool
  | .crossR2P => s.r2pEnabled
  | .crossW2C => s.w2cEnabled
  | _ => true

/-- The agent steps still to come, from the first that is enabled on. A crossing that stands before it has no step (R118, VX3) and is
passed over (log 5, DEDUCED). -/
def Fifo.due (s : Fifo p) : List (AgentStep p) := s.inputs.dropWhile (fun move => !s.enables move)

/-- No agent step is left: an enabled crossing steps, X_R2P before X_W2C (DESIGN CHOICE, log 4); with neither enabled the run has
ended (R153) and nothing changes. -/
def Fifo.idle (s : Fifo p) : Fifo p :=
  if s.r2pEnabled then s.crossR2P else if s.w2cEnabled then s.crossW2C else s

/-- The machine with a fixed schedule placed before every agent step still to come (R82, R121). -/
def Fifo.schedule (s : Fifo p) (moves : List (AgentStep p)) : Fifo p := { s with inputs := moves ++ s.inputs }

end Sys2Proof.Machine
end

