-- ==== Sys2Proof/Machine/Step.lean ====
section
/-! DEFINITION. One step of the machine: the oldest enabled agent step still to come; and where the host's word is placed. -/

namespace Sys2Proof.Machine

/-- The next step in the schedule (R121, R131): the oldest agent step still to come that is enabled, else an idle step. -/
def step (s : State) : Host.Outcome State Fault Refusal :=
  match s.fifo.due with
  | [] => s.next (Fifo.idle { s.fifo with inputs := [] })
  | move :: rest => agentStep { params := s.params, fifo := { s.fifo with inputs := rest } } move

/-- `k` steps, stopping at the first that is none. -/
def steps : Nat → State → Host.Outcome State Fault Refusal
  | 0, s => .next s
  | k + 1, s =>
    match step s with
    | .next t => steps k t
    | .fault r => .fault r
    | .refused r => .refused r

/-- The state with a word of the opcode table placed as the next transaction, on its group's port and with no payload, before
every other agent step. The core fetches nothing (R20): this stands for an agent issuing the command (log 3, log 15). -/
def State.withFetchWord (s : State) (nbits w : Nat) : State :=
  { params := s.params, fifo := s.fifo.schedule [.command (tablePort nbits w) (tableWord s.params nbits w) []] }

end Sys2Proof.Machine
end

