-- ==== Sys2Proof/Machine/Assembler.lean ====
section
/-! DEFINITION. The notation of command programs (30_encoding.md R81 to R85): reading a line, the agent steps it stands for, and
writing a transaction out. Nothing here is part of the core; the choices it makes are in log 13. -/

namespace Sys2Proof.Machine

variable {p : Params}

/-! ## Lines (R81, R82, R83) -/

/-- A program line. -/
inductive Line (p : Params) where
  /-- `<port>: <MNEMONIC> <operands>` (R81). -/
  | command (t : Transaction p)
  /-- `SYNC R2P` (R82). -/
  | syncR2P
  /-- `SYNC W2C` (R82). -/
  | syncW2C
  /-- `EXT_WRITE addr, byte` (R82). -/
  | extWrite (a : Addr p) (v : Byte)
  /-- `EXT_READ addr` (R82). -/
  | extRead (a : Addr p)
  /-- `SYNC ALL` (R83). -/
  | syncAll
  /-- `P: DMA_FILL [b0, ...]` (R83). -/
  | dmaFill (bytes : List Byte)
  /-- `C: DMA_DRAIN k` (R83). -/
  | dmaDrain (k : Cursor p)
  deriving DecidableEq, Repr

/-- What LW_REGION or LR_REGION would answer for a cursor: its window, or no window while unconfigured (R83, R126). -/
def Fifo.windowAnswer (s : Fifo p) (c : Cursor p) : Response p :=
  if s.configured then s.windowAt c else { status := .notConfigured }

/-- `EXT_WRITE a+i, b(i)` for each byte in order (R83). -/
def fillSteps (a : Addr p) : List Byte → List (AgentStep p)
  | [] => []
  | byte :: bytes => .extWrite a byte :: fillSteps (a + 1) bytes

/-- `EXT_READ a+i` for `k` bytes in order (R83). -/
def drainSteps (a : Addr p) : Nat → List (AgentStep p)
  | 0 => []
  | k + 1 => .extRead a :: drainSteps (a + 1) k

/-- The agent steps a line stands for when the machine is in state `s`; none when the assembler rejects the line, because the
window is shorter than the transfer (R83). -/
def Line.steps (s : Fifo p) : Line p → Option (List (AgentStep p))
  | .command t => some [.command t.port t.word t.payload]
  | .syncR2P => some [.crossR2P]
  | .syncW2C => some [.crossW2C]
  | .extWrite a v => some [.extWrite a v]
  | .extRead a => some [.extRead a]
  | .syncAll => some [.crossR2P, .crossW2C]
  | .dmaFill bytes =>
    let window := s.windowAnswer s.wc
    if window.value.toNat < bytes.length then none
    else some (issue p .lwRegion :: fillSteps window.raddr bytes ++ [issue p (.lwFinish bytes.length)])
  | .dmaDrain k =>
    let window := s.windowAnswer s.rc
    if window.value < k then none
    else some (issue p .lrRegion :: drainSteps window.raddr k.toNat ++ [issue p (.lrFinish k.toNat)])

/-! ## Mnemonics (R74, R81) -/

/-- The operands a mnemonic takes (R81). -/
inductive Shape where
  /-- none -/
  | plain
  /-- `base, size` -/
  | baseSize
  /-- `byte` -/
  | data
  /-- `n, [b0, ...]` -/
  | counted
  /-- `n` -/
  | count
  deriving DecidableEq, Repr

/-- The mnemonics of R74 with their OP and their operands. -/
def mnemonicTable : List (String × Byte × Shape) :=
  [("INIT", 0x01, .baseSize), ("RESET", 0x02, .plain), ("SIZE", 0x40, .plain), ("USED", 0x41, .plain),
   ("FREE", 0x42, .plain), ("IS_FULL", 0x43, .plain), ("IS_EMPTY", 0x44, .plain), ("WRITE_ONE", 0x80, .data),
   ("WRITE_BULK", 0x81, .counted), ("WRITE_BULK_TRUNC", 0x82, .counted), ("LW_REGION", 0x83, .plain),
   ("LW_REMAINING", 0x84, .plain), ("LW_FINISH", 0x85, .count), ("READ_ONE", 0xC0, .plain), ("PEEK_ONE", 0xC1, .plain),
   ("READ_BULK", 0xC2, .count), ("LR_REGION", 0xC3, .plain), ("LR_REMAINING", 0xC4, .plain), ("LR_FINISH", 0xC5, .count)]

/-- The OP and the operands of a mnemonic. -/
def mnemonicOp (name : String) : Option (Byte × Shape) := (mnemonicTable.find? (fun row => row.1 == name)).map (fun row => row.2)

/-- The mnemonic and the operands of an OP; none for an unassigned OP. -/
def opMnemonic (op : Byte) : Option (String × Shape) :=
  (mnemonicTable.find? (fun row => row.2.1 == op)).map (fun row => (row.1, row.2.2))

/-! ## Reading a line (R81) -/

/-- The tokens of a line. -/
inductive Token where
  | name (s : String)
  | colon
  | comma
  | opening
  | closing
  deriving DecidableEq, Repr

/-- The value of a digit, decimal or hexadecimal. -/
def digitValue (c : Char) : Option Nat :=
  if 48 ≤ c.toNat ∧ c.toNat ≤ 57 then some (c.toNat - 48)
  else if 65 ≤ c.toNat ∧ c.toNat ≤ 70 then some (c.toNat - 55)
  else if 97 ≤ c.toNat ∧ c.toNat ≤ 102 then some (c.toNat - 87)
  else none

/-- The number the digits write in a base, after those already read. -/
def readDigits (base : Nat) : List Char → Nat → Option Nat
  | [], value => some value
  | c :: cs, value =>
    match digitValue c with
    | none => none
    | some d => if d < base then readDigits base cs (value * base + d) else none

/-- A number, decimal or hexadecimal with a `0x` prefix (R81). -/
def readNumber (digits : List Char) : Option Nat :=
  match digits with
  | [] => none
  | ['0', 'x'] => none
  | '0' :: 'x' :: hex => readDigits 16 hex 0
  | decimal => readDigits 10 decimal 0

/-- A number that fits in `w` bits. -/
def readWord (w : Nat) (s : String) : Option (BitVec w) :=
  match readNumber s.toList with
  | none => none
  | some value => if value < 2 ^ w then some (BitVec.ofNat w value) else none

/-- Letters, digits and the underscore. -/
def nameChar (c : Char) : Bool := c.isAlphanum || c == '_'

/-- The token ended by a separator, before the tokens after it. -/
def endName (chars : List Char) (rest : List Token) : List Token :=
  if chars.isEmpty then rest else .name (String.ofList chars.reverse) :: rest

/-- The tokens of a line, up to a `;` comment (R81); `chars` are those of the name being read, last first. -/
def tokenize : List Char → List Char → Option (List Token)
  | [], chars => some (endName chars [])
  | c :: cs, chars =>
    if c == ';' then some (endName chars [])
    else if c == ' ' then (tokenize cs []).map (endName chars)
    else if c == ':' then (tokenize cs []).map (fun rest => endName chars (.colon :: rest))
    else if c == ',' then (tokenize cs []).map (fun rest => endName chars (.comma :: rest))
    else if c == '[' then (tokenize cs []).map (fun rest => endName chars (.opening :: rest))
    else if c == ']' then (tokenize cs []).map (fun rest => endName chars (.closing :: rest))
    else if nameChar c then tokenize cs (c :: chars)
    else none

/-- The bytes of a list after its opening bracket, to the closing bracket that ends the line (R81). -/
def readBytes : List Token → Option (List Byte)
  | [.name s, .closing] => (readWord 8 s).map (fun byte => [byte])
  | .name s :: .comma :: rest =>
    match readWord 8 s, readBytes rest with
    | some byte, some bytes => some (byte :: bytes)
    | _, _ => none
  | _ => none

/-- A bracketed list of bytes, perhaps empty. -/
def readList : List Token → Option (List Byte)
  | [.opening, .closing] => some []
  | .opening :: rest => readBytes rest
  | _ => none

/-- The word and payload of a mnemonic's operands; unread fields are 0 and a payload has exactly `n` bytes (R72, R81). -/
def readOperands (p : Params) (op : Byte) : Shape → List Token → Option (CmdWord p × List Byte)
  | .plain, [] => some (packWord op 0 (p.cursor 0) (p.addr 0), [])
  | .baseSize, [.name base, .comma, .name size] =>
    match readWord p.addrW base, readWord p.cursorW size with
    | some base, some size => some (packWord op 0 size base, [])
    | _, _ => none
  | .data, [.name byte] => (readWord 8 byte).map (fun byte => (packWord op byte (p.cursor 0) (p.addr 0), []))
  | .count, [.name n] => (readWord p.cursorW n).map (fun n => (packWord op 0 n (p.addr 0), []))
  | .counted, .name n :: .comma :: bytes =>
    match readWord p.cursorW n, readList bytes with
    | some n, some payload => if payload.length = n.toNat then some (packWord op 0 n (p.addr 0), payload) else none
    | _, _ => none
  | _, _ => none

/-- The port a line names (R81). -/
def readPort (s : String) : Option Port :=
  if s == "P" then some .p else if s == "C" then some .c else if s == "K" then some .k else none

/-- A command line: any mnemonic on any port, for a command on the wrong port is a line the core answers ILLEGAL (R75, R81). -/
def readCommand (p : Params) (port : Port) (name : String) (operands : List Token) : Option (Line p) :=
  match mnemonicOp name with
  | none => none
  | some (op, shape) =>
    (readOperands p op shape operands).map (fun (word, payload) => .command { port := port, word := word, payload := payload })

/-- The line some tokens write (R81, R82, R83). No tokens write no line, so a blank line and a line that holds only a comment are
rejected. DESIGN CHOICE (log 13): the spec does not say whether a program may hold such a line. -/
def readLine (p : Params) : List Token → Option (Line p)
  | [.name "SYNC", .name what] =>
    if what == "R2P" then some .syncR2P else if what == "W2C" then some .syncW2C
    else if what == "ALL" then some .syncAll else none
  | [.name "EXT_WRITE", .name a, .comma, .name v] =>
    match readWord p.addrW a, readWord 8 v with
    | some a, some v => some (.extWrite a v)
    | _, _ => none
  | [.name "EXT_READ", .name a] => (readWord p.addrW a).map .extRead
  | .name "P" :: .colon :: .name "DMA_FILL" :: bytes => (readList bytes).map .dmaFill
  | [.name "C", .colon, .name "DMA_DRAIN", .name k] => (readWord p.cursorW k).map .dmaDrain
  | .name port :: .colon :: .name name :: operands =>
    match readPort port with
    | none => none
    | some port => readCommand p port name operands
  | _ => none

/-- Assemble one line of text at some widths; none for text that is no line (R81 to R84; a blank line is none, log 13). -/
def assemble (p : Params) (text : String) : Option (Line p) :=
  match tokenize text.toList [] with
  | none => none
  | some tokens => readLine p tokens

/-! ## Writing a transaction out (R85) -/

/-- One hexadecimal digit. -/
def hexDigit (n : Nat) : Char := if n < 10 then Char.ofNat (48 + n) else Char.ofNat (55 + n)

/-- The numbers of a list, separated by commas. -/
def writeBytes : List Byte → String
  | [] => ""
  | [byte] => toString byte.toNat
  | byte :: bytes => toString byte.toNat ++ ", " ++ writeBytes bytes

/-- The operands a command reads (R81, R85). -/
def writeOperands (word : CmdWord p) (payload : List Byte) : Shape → String
  | .plain => ""
  | .baseSize => " " ++ toString (addrField word).toNat ++ ", " ++ toString (argField word).toNat
  | .data => " " ++ toString (fieldData word).toNat
  | .counted => " " ++ toString (argField word).toNat ++ ", [" ++ writeBytes payload ++ "]"
  | .count => " " ++ toString (argField word).toNat

/-- A port's name. -/
def portName : Port → String
  | .p => "P"
  | .c => "C"
  | .k => "K"

/-- Disassemble a transaction: the fields its command reads, in decimal, or `.illegal 0x<OP>` for an unassigned OP (R85). DESIGN CHOICE
(log 13): the spec does not say what a transaction that the decoder refuses for its payload disassembles to. It is written as its
mnemonic's line with the fields R81 gives that mnemonic, so a payload on a command that carries none is dropped; and a legal OP on the
wrong port is written with its mnemonic too. -/
def disassemble (t : Transaction p) : String :=
  match opMnemonic (fieldOp t.word) with
  | none =>
    ".illegal 0x" ++ String.ofList [hexDigit ((fieldOp t.word).toNat / 16), hexDigit ((fieldOp t.word).toNat % 16)]
  | some (name, shape) => portName t.port ++ ": " ++ name ++ writeOperands t.word t.payload shape

end Sys2Proof.Machine
end

