-- ==== Sys2Proof/Safety.lean ====
section
/-! DEFINITION. What counts as a safe run, in the terms claims use: the contract kept (R38, R129), the invariants of R23, R31, R32
and R41, the synchronised states and the fair endless runs (R121, R122), the launches of R152 and the end of a run (R153). -/

namespace Sys2Proof.Machine

variable {p : Params}

/-! ## States -/

/-- The caller's contract has been kept so far: FAULTS is empty (R38, R129). -/
abbrev Fifo.ContractKept (s : Fifo p) : Prop := s.faults = []

/-- The configuration registers agree: while CONFIGURED is 1, (POOL_BASE, CAPACITY) is legal and MASK is CAPACITY - 1
(R23, R41, R95). -/
abbrev Fifo.ConfigOk (s : Fifo p) : Prop :=
  s.configured = true → legalConfig s.poolBase s.capacity = true ∧ s.mask = s.capacity - 1

/-- The view invariant of R32, `rs <= r <= ws <= w <= rs + CAPACITY`, as the three gaps between the cursors: together they are
at most CAPACITY. -/
abbrev Fifo.ViewOk (s : Fifo p) : Prop :=
  (s.rc - s.rcSync).toNat + (s.wcSync - s.rc).toNat + (s.wc - s.wcSync).toNat ≤ s.capacity.toNat

/-- The canonical forms of memory and of FAULTS. -/
abbrev Fifo.Canonical (s : Fifo p) : Prop := Memory.wf p s.mem ∧ FaultSet.wf s.faults

/-- The invariant of every state a run reaches: canonical data, agreeing configuration registers, and the view invariant as long
as no model fault is recorded. -/
abbrev Fifo.Inv (s : Fifo p) : Prop := s.Canonical ∧ s.ConfigOk ∧ (s.ContractKept → s.ViewOk)

/-- A synchronised state (R122). -/
abbrev Fifo.Synchronised (s : Fifo p) : Prop := s.rcSync = s.rc ∧ s.wcSync = s.wc

/-- The run has ended (R153): no agent has a step left, and neither crossing is enabled. A crossing that is listed while it is not
enabled is no step left; a power-on event that is listed is one (log 4, DEDUCED). -/
abbrev Fifo.RunEnded (s : Fifo p) : Prop := s.due = [] ∧ s.r2pEnabled = false ∧ s.w2cEnabled = false

/-- What a claim may say of an ended run (R153): the responses per port, the final core registers (R21) and the final memory. -/
structure Observation (p : Params) where
  respP : List (Response p)
  respC : List (Response p)
  respK : List (Response p)
  configured : Bool
  poolBase : Addr p
  capacity : Cursor p
  mask : Cursor p
  wc : Cursor p
  rc : Cursor p
  rcSync : Cursor p
  wcSync : Cursor p
  mem : List Host.Cell
  deriving DecidableEq, Repr

/-- The observation of an ended run; none before the end, and none once a model fault is recorded (R153, R129). -/
def Fifo.observation (s : Fifo p) : Option (Observation p) :=
  if s.RunEnded ∧ s.ContractKept then
    some {
      respP := s.respP, respC := s.respC, respK := s.respK, configured := s.configured, poolBase := s.poolBase,
      capacity := s.capacity, mask := s.mask, wc := s.wc, rc := s.rc, rcSync := s.rcSync, wcSync := s.wcSync, mem := s.mem }
  else none

/-- `PowerOnLaunch` (R152): the registers of R141, with any memory and any agent steps to come. -/
abbrev Fifo.PowerOnLaunch (s : Fifo p) : Prop :=
  s = { Fifo.reset p with mem := s.mem, inputs := s.inputs } ∧ Memory.wf p s.mem

/-- `ConfiguredLaunch(base, size)` (R152): the state `s` just after INIT answered OK from the power-on launch `launch`. -/
def Fifo.ConfiguredLaunch (launch : Fifo p) (base : Addr p) (size : Cursor p) (s : Fifo p) : Prop :=
  launch.PowerOnLaunch ∧ legalConfig base size = true ∧ s = launch.init base size

/-- The oldest enabled agent step still to come is a transaction that spells this command, so the next step runs it (R88). -/
def Fifo.Runs (s : Fifo p) (i : Instr) : Prop :=
  ∃ port word payload rest, s.due = .command port word payload :: rest ∧ decode port word payload = .command i

/-! ## Endless runs (R121) -/

/-- An endless run: step `n` of the schedule takes state `n` to state `n + 1`. An agent that keeps polling has such a schedule.
A crossing that is not enabled has no step, so it stands at no place of one (R118). -/
def EndlessRun (schedule : Nat → AgentStep p) (states : Nat → Fifo p) : Prop :=
  ∀ n, agentStep { params := p, fifo := states n } (schedule n) = .next { params := p, fifo := states (n + 1) }

/-- Weak fairness of each crossing (R121): one that stays enabled from some state on eventually steps. -/
def WeaklyFair (schedule : Nat → AgentStep p) (states : Nat → Fifo p) : Prop :=
  (∀ n, (∀ m, n ≤ m → (states m).r2pEnabled = true) → ∃ m, n ≤ m ∧ schedule m = .crossR2P) ∧
  ∀ n, (∀ m, n ≤ m → (states m).w2cEnabled = true) → ∃ m, n ≤ m ∧ schedule m = .crossW2C

/-- A fair run: the only kind a liveness claim speaks of (R121). -/
def FairRun (schedule : Nat → AgentStep p) (states : Nat → Fifo p) : Prop :=
  EndlessRun schedule states ∧ WeaklyFair schedule states

end Sys2Proof.Machine
end

