-- ==== Sys2Proof/Certificates/Slice0/Obligations.lean ====
section
/-! DEFINITION. The statements for the provers, from the spec's numbered rules. Where a statement writes `t = { s with … }` it says
that every field not named is as it was: that is its frame. `⟨p, s⟩` is the machine of widths `p` (R8, R9) in state `s`, so every
statement holds at every CURSOR_W and ADDR_W. -/

open Sys2Proof Sys2Proof.Machine

/-! ## Launch and the machine's step -/

/-- R43: at power-on every register is 0, no window is open, FAULTS is empty and the flag outputs take the forced values, at every
width; the model's State.reset is that state at the default widths (log 1). -/
def Obligations.PowerOnLeavesEveryRegisterZero : Prop :=
  State.reset = ⟨.default, Fifo.reset .default⟩ ∧
  ∀ (p : Params) (s : Fifo p), s = Fifo.reset p →
    s.configured = false ∧ s.poolBase = 0 ∧ s.capacity = 0 ∧ s.mask = 0 ∧
    s.wc = 0 ∧ s.rc = 0 ∧ s.rcSync = 0 ∧ s.wcSync = 0 ∧ s.lwOpen = false ∧ s.lrOpen = false ∧ s.faults = [] ∧
    ∀ side, s.flags side = { used := 0, free := 0, full := true, empty := true }

/-- The invariant of `StepKeepsTheInvariant` holds at power-on, at every width. -/
def Obligations.PowerOnMeetsTheInvariant : Prop := State.reset.fifo.Inv ∧ ∀ p : Params, (Fifo.reset p).Inv

/-- R38, R44, R141: power-on reset under way zeroes every register and closes the windows; FAULTS and memory stay, and so do the
lists of what the agents have seen and still mean to do (the model's choice, log 10). -/
def Obligations.PowerOnEventKeepsFaultsAndMemory : Prop :=
  ∀ (p : Params) (s : Fifo p) (rest : List (AgentStep p)), s.inputs = .powerOn :: rest →
    step ⟨p, s⟩ = .next ⟨p, { Fifo.reset p with
      faults := s.faults, mem := s.mem, inputs := rest, respP := s.respP, respC := s.respC, respK := s.respK,
      extReads := s.extReads }⟩

/-- R42: the widths are configuration and no state: no step changes them. -/
def Obligations.NoStepChangesTheWidths : Prop := ∀ s t : State, step s = .next t → t.params = s.params

/-- R88: when the oldest agent step is a transaction that decodes to a command, the step is that command's execution, with the
transaction taken from the schedule and nothing else around it. -/
def Obligations.StepRunsTheDecodedCommand : Prop :=
  ∀ (p : Params) (s : Fifo p) (port : Port) (word : CmdWord p) (payload : List Byte) (rest : List (AgentStep p)) (i : Instr),
    s.inputs = .command port word payload :: rest → decode port word payload = .command i →
    step ⟨p, s⟩ = exec i ⟨p, { s with inputs := rest }⟩

/-- R75, R125: the decoder's ILLEGAL verdict falls exactly on an OP that is not assigned or not legal on the port, whatever the
payload; the core then answers ILLEGAL to that port and changes nothing else. -/
def Obligations.IllegalCommandsAnswerIllegalAndChangeNothing : Prop :=
  ∀ (p : Params) (s : Fifo p) (port : Port) (word : CmdWord p) (payload : List Byte) (rest : List (AgentStep p)),
    (decode port word payload = .illegal ↔
      (fieldOp word).toNat ∉ [0x01, 0x02, 0x40, 0x41, 0x42, 0x43, 0x44, 0x80, 0x81, 0x82, 0x83, 0x84, 0x85,
        0xC0, 0xC1, 0xC2, 0xC3, 0xC4, 0xC5] ∨
      ((fieldOp word).toNat / 64 = 0 ∧ port ≠ .k) ∨ ((fieldOp word).toNat / 64 = 1 ∧ port = .k) ∨
      ((fieldOp word).toNat / 64 = 2 ∧ port ≠ .p) ∨ ((fieldOp word).toNat / 64 = 3 ∧ port ≠ .c)) ∧
    (s.inputs = .command port word payload :: rest → decode port word payload = .illegal →
      ∃ t, step ⟨p, s⟩ = .next ⟨p, t⟩ ∧
        t = { s with inputs := rest, respP := t.respP, respC := t.respC, respK := t.respK } ∧
        t.responses port = s.responses port ++ [{ status := .illegal }] ∧
        ∀ q, q ≠ port → t.responses q = s.responses q)

/-- R73, R80: a transaction whose OP is legal on its port but whose payload is not exactly the bytes the command carries spells
no command: the decoder refuses it and it has no step. -/
def Obligations.WrongPayloadLengthHasNoStep : Prop :=
  ∀ (p : Params) (s : Fifo p) (port : Port) (word : CmdWord p) (payload : List Byte) (rest : List (AgentStep p)),
    (decode port word payload = .refused ↔
      decode port word payload ≠ .illegal ∧
      payload.length ≠ (if fieldOp word = 0x81 ∨ fieldOp word = 0x82 then (argField word).toNat else 0)) ∧
    (s.inputs = .command port word payload :: rest → decode port word payload = .refused →
      step ⟨p, s⟩ = .refused .payloadLength)

/-- R153: a run has ended exactly when no port, no EXT and no power-on event has a step left in the list (that a listed power-on event
counts is the model's reading, log 4, DEDUCED) and the state is synchronised; it has an observation exactly when it has ended with
FAULTS empty; a step after the end changes nothing but the list, from which the crossings are gone, and keeps the observation. R121 with
the model's choice of what happens when no enabled agent step is left in the list (log 4, DESIGN CHOICE): the enabled crossings step, so
two steps reach the end, with only the cursor copies changed and the listed crossings passed over (log 5). -/
def Obligations.IdleStepsEndTheRun : Prop :=
  ∀ (p : Params) (s : Fifo p),
    (s.RunEnded ↔ (∀ move ∈ s.inputs, move = .crossR2P ∨ move = .crossW2C) ∧ s.Synchronised) ∧
    (s.observation.isSome = true ↔ s.RunEnded ∧ s.ContractKept) ∧
    (s.RunEnded → ∃ t, step ⟨p, s⟩ = .next ⟨p, t⟩ ∧ t = { s with inputs := [] } ∧ t.RunEnded ∧ t.observation = s.observation) ∧
    (s.due = [] → ∃ t u, step ⟨p, s⟩ = .next ⟨p, t⟩ ∧ step ⟨p, t⟩ = .next ⟨p, u⟩ ∧
      u = { s with inputs := [], rcSync := s.rc, wcSync := s.wc } ∧ u.RunEnded)

/-! ## Encoding -/

/-- R84: at the default widths the words of its examples decode, on their ports and with their payloads, to the commands
written beside them. -/
def Obligations.SpecWordsDecodeToTheirCommands : Prop :=
  decode (p := .default) .k 0x00001000000000080001 [] = .command (.init 0x1000 8) ∧
  decode (p := .default) .k 0x00001000000000060001 [] = .command (.init 0x1000 6) ∧
  decode (p := .default) .k 0x00000000000000000002 [] = .command .reset ∧
  decode (p := .default) .p 0x00000000000000005A80 [] = .command (.writeOne 0x5A) ∧
  decode (p := .default) .p 0x00000000000000060081 [1, 2, 3, 4, 5, 6] = .command (.writeBulk 6 [1, 2, 3, 4, 5, 6]) ∧
  decode (p := .default) .c 0x000000000000000400C2 [] = .command (.readBulk 4) ∧
  decode (p := .default) .p 0x00000000000000050085 [] = .command (.lwFinish 5)

/-- R80, R84: at every width, for every command that is well formed there, with every operand at every value, the decoder reads the
transaction an agent sends for it as that command. -/
def Obligations.DecodeOfEncodeIsTheCommand : Prop :=
  ∀ (p : Params) (i : Instr), i.wf p = true →
    decode (encode p i).port (encode p i).word (encode p i).payload = .command i

/-- R80, R85: whatever the decoder admits is well formed, is issued on the port it arrived on with the payload it carried, and its
own encoding decodes to the same command. -/
def Obligations.DecodedCommandsAreWellFormedAndEncodeBack : Prop :=
  ∀ (p : Params) (port : Port) (word : CmdWord p) (payload : List Byte) (i : Instr), decode port word payload = .command i →
    i.wf p = true ∧ (encode p i).port = port ∧ (encode p i).payload = payload ∧ fieldOp (encode p i).word = fieldOp word ∧
    decode port (encode p i).word payload = .command i

/-- R71, R72: two words with the same OP that agree on the operand fields R71 lists for that OP decode alike, on any port and with
any payload; and the encoder writes every field its command does not read as 0. -/
def Obligations.UnreadFieldsAreIgnoredAndWrittenAsZero : Prop :=
  (∀ (p : Params) (port : Port) (word other : CmdWord p) (payload : List Byte), fieldOp word = fieldOp other →
    ((fieldOp word).toNat = 0x80 → fieldData word = fieldData other) →
    ((fieldOp word).toNat ∈ [0x01, 0x81, 0x82, 0x85, 0xC2, 0xC5] → argField word = argField other) →
    ((fieldOp word).toNat = 0x01 → addrField word = addrField other) →
    decode port word payload = decode port other payload) ∧
  ∀ (p : Params) (i : Instr),
    ((fieldOp (encode p i).word).toNat ≠ 0x80 → fieldData (encode p i).word = 0) ∧
    ((fieldOp (encode p i).word).toNat ∉ [0x01, 0x81, 0x82, 0x85, 0xC2, 0xC5] → argField (encode p i).word = 0) ∧
    ((fieldOp (encode p i).word).toNat ≠ 0x01 → addrField (encode p i).word = 0)

/-- R76, R77: the response word holds the status code in bits 2:0, zeros in 7:3, then RDATA, VALUE and RADDR; the codes are those
of R77, and 6 and 7 are never produced. -/
def Obligations.ResponseWordHoldsItsFields : Prop :=
  (∀ (p : Params) (r : Response p), r.word.extractLsb' 0 3 = r.status.code ∧ r.word.extractLsb' 3 5 = 0 ∧
    r.word.extractLsb' 8 8 = r.rdata ∧ r.word.extractLsb' 16 p.cursorW = r.value ∧
    r.word.extractLsb' (16 + p.cursorW) p.addrW = r.raddr ∧ r.word.extractLsb' 0 3 ≠ 6 ∧ r.word.extractLsb' 0 3 ≠ 7) ∧
  Status.ok.code = 0 ∧ Status.full.code = 1 ∧ Status.empty.code = 2 ∧ Status.configError.code = 3 ∧
  Status.illegal.code = 4 ∧ Status.notConfigured.code = 5

/-! ## Every command -/

/-- R12, R67, R123: every well-formed command completes in every state, with exactly one response, to the port it was issued on
and to no other; the schedule and EXT's bytes are untouched. -/
def Obligations.EveryCommandAnswersItsPortOnce : Prop :=
  ∀ (p : Params) (i : Instr) (s : Fifo p), i.wf p = true →
    ∃ t r, exec i ⟨p, s⟩ = .next ⟨p, t⟩ ∧ t.responses i.port = s.responses i.port ++ [r] ∧
      (∀ q, q ≠ i.port → t.responses q = s.responses q) ∧ t.inputs = s.inputs ∧ t.extReads = s.extReads

/-- The meanings refuse exactly the bulk writes whose payload is not as long as ARG announces. R73 and R80 have the decoder refuse
such a transaction; that `exec` refuses it too, when it is given one as an `Instr`, is the model's choice (log 7, DEDUCED), and so is
that an `Instr`'s `n` is read modulo 2^CURSOR_W, also where it does not fit in ARG (log 17, DEDUCED). -/
def Obligations.ExecRefusesExactlyWrongPayloadLengths : Prop :=
  ∀ (p : Params) (i : Instr) (s : Fifo p),
    (exec i ⟨p, s⟩ = .refused .payloadLength ↔
      ∃ n payload, (i = .writeBulk n payload ∨ i = .writeBulkTrunc n payload) ∧ payload.length ≠ n % 2 ^ p.cursorW) ∧
    ∀ r, exec i ⟨p, s⟩ = .refused r → r = .payloadLength

/-- R126: while CONFIGURED is 0 every command except INIT answers NOT_CONFIGURED and changes nothing. -/
def Obligations.UnconfiguredCoreAnswersOnlyInit : Prop :=
  ∀ (p : Params) (i : Instr) (s : Fifo p), i.wf p = true → s.configured = false → (∀ base size, i ≠ .init base size) →
    exec i ⟨p, s⟩ = .next ⟨p, s.respond i.port { status := .notConfigured }⟩

/-- R127: a command that answers FULL, EMPTY or NOT_CONFIGURED leaves everything but its port's responses as it was; one that answers
CONFIG_ERROR is an INIT, and it clears CONFIGURED and both window flags, records InitWithOpenWindow exactly when a window was open, and
leaves the rest. -/
def Obligations.FailedCommandsChangeNothing : Prop :=
  ∀ (p : Params) (i : Instr) (s t : Fifo p) (r : Response p), exec i ⟨p, s⟩ = .next ⟨p, t⟩ →
    t.responses i.port = s.responses i.port ++ [r] → r.status ≠ .ok →
    (r.status ≠ .configError → t = s.respond i.port r) ∧
    (r.status = .configError → (∃ base size, i = .init base size) ∧
      t = { s with
        configured := false, lwOpen := false, lrOpen := false, faults := t.faults, respK := s.respK ++ [r] } ∧
      ∀ k, k ∈ t.faults ↔ k ∈ s.faults ∨ (k = .initWithOpenWindow ∧ (s.lwOpen = true ∨ s.lrOpen = true)))

/-- R124: which command answers which failure, and when. -/
def Obligations.EachStatusHasItsCause : Prop :=
  ∀ (p : Params) (i : Instr) (s t : Fifo p) (r : Response p), exec i ⟨p, s⟩ = .next ⟨p, t⟩ →
    t.responses i.port = s.responses i.port ++ [r] →
    (r.status = .full ↔ s.configured = true ∧
      ((∃ byte, i = .writeOne byte ∧ s.freeP = 0) ∨ ∃ n payload, i = .writeBulk n payload ∧ s.freeP < p.cursor n)) ∧
    (r.status = .empty ↔ s.configured = true ∧
      (((i = .readOne ∨ i = .peekOne) ∧ s.usedC = 0) ∨ ∃ n, i = .readBulk n ∧ s.usedC < p.cursor n)) ∧
    (r.status = .configError ↔ ∃ base size, i = .init base size ∧ legalConfig (p.addr base) (p.cursor size) = false) ∧
    (r.status = .notConfigured ↔ s.configured = false ∧ ∀ base size, i ≠ .init base size) ∧
    r.status ≠ .illegal

/-! ## Queries -/

/-- R90 to R94: on a configured core each query answers OK with the value its rule computes from the cursors of the port's view,
and changes nothing; on an unconfigured one it answers NOT_CONFIGURED. -/
def Obligations.QueriesAnswerFromTheirSidesView : Prop :=
  ∀ (p : Params) (s : Fifo p) (side : Side),
    let u := match side with
      | .producer => s.wc - s.rcSync
      | .consumer => s.wcSync - s.rc
    (s.configured = true →
      exec (.size side) ⟨p, s⟩ = .next ⟨p, s.respond side.port { status := .ok, value := s.capacity }⟩ ∧
      exec (.used side) ⟨p, s⟩ = .next ⟨p, s.respond side.port { status := .ok, value := u }⟩ ∧
      exec (.free side) ⟨p, s⟩ = .next ⟨p, s.respond side.port { status := .ok, value := s.capacity - u }⟩ ∧
      exec (.isFull side) ⟨p, s⟩ =
        .next ⟨p, s.respond side.port { status := .ok, value := if s.capacity - u = 0 then 1 else 0 }⟩ ∧
      exec (.isEmpty side) ⟨p, s⟩ = .next ⟨p, s.respond side.port { status := .ok, value := if u = 0 then 1 else 0 }⟩) ∧
    (s.configured = false → ∀ i ∈ [Instr.size side, .used side, .free side, .isFull side, .isEmpty side],
      exec i ⟨p, s⟩ = .next ⟨p, s.respond side.port { status := .notConfigured }⟩)

/-- R89: the answers of one side's queries agree: USED + FREE = SIZE, IS_FULL is FREE = 0, IS_EMPTY is USED = 0; and a query writes
no register, window flag, memory byte or model fault. -/
def Obligations.QueriesOfOneSideAgree : Prop :=
  ∀ (p : Params) (s : Fifo p) (side : Side), s.configured = true →
    ∃ size used free full empty : Cursor p,
      (∀ q ∈ [(Instr.size side, size), (.used side, used), (.free side, free), (.isFull side, full), (.isEmpty side, empty)],
        ∃ t, exec q.1 ⟨p, s⟩ = .next ⟨p, t⟩ ∧
          t.responses side.port = s.responses side.port ++ [{ status := .ok, value := q.2 }] ∧
          t = { s with respP := t.respP, respC := t.respC }) ∧
      used + free = size ∧ full = (if free = 0 then 1 else 0) ∧ empty = if used = 0 then 1 else 0

/-! ## INIT and RESET -/

/-- R95: the model's test is exactly the rule's four conditions. -/
def Obligations.LegalConfigurationIsTheRulesFourConditions : Prop :=
  ∀ (p : Params) (base : Addr p) (size : Cursor p), legalConfig base size = true ↔
    base ≠ 0 ∧ size ≠ 0 ∧ (∃ k, size.toNat = 2 ^ k) ∧ base.toNat + size.toNat ≤ 2 ^ p.addrW

/-- R96: INIT on a legal configuration binds the core, zeroes the four cursors, closes the windows, sets CONFIGURED and answers OK;
on another it clears CONFIGURED, closes the windows and answers CONFIG_ERROR. Either way an open window is recorded. Storage is not
written. Both sides' flag outputs follow. -/
def Obligations.InitBindsTheCoreOrLeavesItUnconfigured : Prop :=
  ∀ (p : Params) (s : Fifo p) (base : Addr p) (size : Cursor p),
    (legalConfig base size = true → ∃ t, exec (.init base.toNat size.toNat) ⟨p, s⟩ = .next ⟨p, t⟩ ∧
      t = { s with
        configured := true, poolBase := base, capacity := size, mask := size - 1, wc := 0, rc := 0, rcSync := 0, wcSync := 0,
        lwOpen := false, lrOpen := false, faults := t.faults, respK := s.respK ++ [{ status := .ok }] } ∧
      (∀ k, k ∈ t.faults ↔ k ∈ s.faults ∨ (k = .initWithOpenWindow ∧ (s.lwOpen = true ∨ s.lrOpen = true))) ∧
      ∀ side, t.flags side = { used := 0, free := size, full := false, empty := true }) ∧
    (legalConfig base size = false → ∃ t, exec (.init base.toNat size.toNat) ⟨p, s⟩ = .next ⟨p, t⟩ ∧
      t = { s with
        configured := false, lwOpen := false, lrOpen := false, faults := t.faults,
        respK := s.respK ++ [{ status := .configError }] } ∧
      (∀ k, k ∈ t.faults ↔ k ∈ s.faults ∨ (k = .initWithOpenWindow ∧ (s.lwOpen = true ∨ s.lrOpen = true))) ∧
      ∀ side, t.flags side = { used := 0, free := 0, full := true, empty := true })

/-- R115, R116, R120: RESET zeroes each cursor with its copy, closes the windows, records an open window and answers OK; storage,
CAPACITY, MASK, POOL_BASE and CONFIGURED stay; both views are then empty with all of CAPACITY free. Unconfigured it answers
NOT_CONFIGURED and changes nothing. -/
def Obligations.ResetEmptiesBothViews : Prop :=
  ∀ (p : Params) (s : Fifo p),
    (s.configured = false → exec .reset ⟨p, s⟩ = .next ⟨p, s.respond .k { status := .notConfigured }⟩) ∧
    (s.configured = true → ∃ t, exec .reset ⟨p, s⟩ = .next ⟨p, t⟩ ∧
      t = { s with
        wc := 0, rc := 0, rcSync := 0, wcSync := 0, lwOpen := false, lrOpen := false, faults := t.faults,
        respK := s.respK ++ [{ status := .ok }] } ∧
      (∀ k, k ∈ t.faults ↔ k ∈ s.faults ∨ (k = .resetWithOpenWindow ∧ (s.lwOpen = true ∨ s.lrOpen = true))) ∧
      t.usedTrue = 0 ∧ (∀ side, t.usedOn side = 0 ∧ t.freeOn side = s.capacity) ∧
      (s.ConfigOk → ∀ side, t.flags side = { used := 0, free := s.capacity, full := false, empty := true }))

/-- R152: a configured launch has CONFIGURED = 1, the configuration INIT was given, every cursor and copy 0, no window open and
FAULTS empty; its memory is that of the power-on launch before the INIT; it is the state that INIT leaves; and it meets the invariant. -/
def Obligations.ConfiguredLaunchIsCleanAndMeetsTheInvariant : Prop :=
  ∀ (p : Params) (launch : Fifo p) (base : Addr p) (size : Cursor p) (s : Fifo p), launch.ConfiguredLaunch base size s →
    exec (.init base.toNat size.toNat) ⟨p, launch⟩ = .next ⟨p, s⟩ ∧
    s.configured = true ∧ s.poolBase = base ∧ s.capacity = size ∧ s.mask = size - 1 ∧ s.wc = 0 ∧ s.rc = 0 ∧ s.rcSync = 0 ∧
    s.wcSync = 0 ∧ s.lwOpen = false ∧ s.lrOpen = false ∧ s.faults = [] ∧ s.mem = launch.mem ∧ s.Inv

/-! ## Single-unit transfer -/

/-- R99: WRITE_ONE answers FULL and changes nothing when the producer view has no space; else it stores the byte at WC's storage
byte and nowhere else, advances WC by 1 and answers OK with VALUE 1. P_USED goes up 1 and P_FREE down 1, P_FULL becomes 1 when the
write filled the buffer, P_EMPTY becomes 0, and the C outputs stay. -/
def Obligations.WriteOneStoresTheByteOrAnswersFull : Prop :=
  ∀ (p : Params) (s : Fifo p) (byte : Byte),
    (s.configured = false → exec (.writeOne byte) ⟨p, s⟩ = .next ⟨p, s.respond .p { status := .notConfigured }⟩) ∧
    (s.configured = true → s.capacity - (s.wc - s.rcSync) = 0 →
      exec (.writeOne byte) ⟨p, s⟩ = .next ⟨p, s.respond .p { status := .full }⟩) ∧
    (s.configured = true → s.capacity - (s.wc - s.rcSync) ≠ 0 → ∃ t, exec (.writeOne byte) ⟨p, s⟩ = .next ⟨p, t⟩ ∧
      t = { s with wc := s.wc + 1, mem := t.mem, respP := s.respP ++ [{ status := .ok, value := 1 }] } ∧
      t.memRead (s.poolBase + (s.wc &&& s.mask).setWidth p.addrW) = byte ∧
      (∀ a, a ≠ s.poolBase + (s.wc &&& s.mask).setWidth p.addrW → t.memRead a = s.memRead a) ∧
      (t.flags .producer).used = s.usedP + 1 ∧ (t.flags .producer).free = s.freeP - 1 ∧
      ((t.flags .producer).full = true ↔ s.freeP = 1) ∧
      (s.ConfigOk → s.ViewOk → (t.flags .producer).empty = false) ∧ t.flags .consumer = s.flags .consumer)

/-- R100: READ_ONE answers EMPTY and changes nothing when the consumer view holds nothing; else it answers the byte at RC's storage
byte and advances RC by 1, changing no memory. C_USED goes down 1 and C_FREE up 1, C_EMPTY becomes 1 when the read emptied the
view, C_FULL becomes 0, and the P outputs stay. -/
def Obligations.ReadOneAnswersTheByteOrEmpty : Prop :=
  ∀ (p : Params) (s : Fifo p),
    (s.configured = false → exec .readOne ⟨p, s⟩ = .next ⟨p, s.respond .c { status := .notConfigured }⟩) ∧
    (s.configured = true → s.wcSync - s.rc = 0 → exec .readOne ⟨p, s⟩ = .next ⟨p, s.respond .c { status := .empty }⟩) ∧
    (s.configured = true → s.wcSync - s.rc ≠ 0 → ∃ t, exec .readOne ⟨p, s⟩ = .next ⟨p, t⟩ ∧
      t = { s with
        rc := s.rc + 1,
        respC := s.respC ++ [{
          status := .ok, value := 1, rdata := s.memRead (s.poolBase + (s.rc &&& s.mask).setWidth p.addrW) }] } ∧
      (t.flags .consumer).used = s.usedC - 1 ∧ (t.flags .consumer).free = s.freeC + 1 ∧
      ((t.flags .consumer).empty = true ↔ s.usedC = 1) ∧
      (s.ConfigOk → s.ViewOk → (t.flags .consumer).full = false) ∧ t.flags .producer = s.flags .producer)

/-- R101: PEEK_ONE answers as READ_ONE would and changes nothing else, and a READ_ONE right after it answers the same byte. -/
def Obligations.PeekOneAnswersTheByteReadOneWillTake : Prop :=
  ∀ (p : Params) (s : Fifo p),
    (s.configured = false → exec .peekOne ⟨p, s⟩ = .next ⟨p, s.respond .c { status := .notConfigured }⟩) ∧
    (s.configured = true → s.wcSync - s.rc = 0 → exec .peekOne ⟨p, s⟩ = .next ⟨p, s.respond .c { status := .empty }⟩) ∧
    (s.configured = true → s.wcSync - s.rc ≠ 0 →
      exec .peekOne ⟨p, s⟩ =
        .next ⟨p, s.respond .c {
          status := .ok, value := 1, rdata := s.memRead (s.poolBase + (s.rc &&& s.mask).setWidth p.addrW) }⟩) ∧
    ∀ t, exec .peekOne ⟨p, s⟩ = .next ⟨p, t⟩ →
      ∃ u r, exec .readOne ⟨p, t⟩ = .next ⟨p, u⟩ ∧ t.respC = s.respC ++ [r] ∧ u.respC = s.respC ++ [r, r]

/-! ## Bulk transfer -/

/-- R102: for no more than CAPACITY bytes on a legal configuration, the two-pass split copy and the copy in cursor order do the
same, in both directions, and no storage byte is touched twice. -/
def Obligations.SplitCopyIsTheCopyInCursorOrder : Prop :=
  ∀ (p : Params) (s : Fifo p) (c : Cursor p), s.configured = true → s.ConfigOk →
    (∀ bytes : List Byte, bytes.length ≤ s.capacity.toNat → s.splitCopyIn c bytes = s.copyIn c bytes) ∧
    (∀ k : Nat, k ≤ s.capacity.toNat → s.splitCopyOut c k = s.copyOut c k) ∧
    ∀ i j : Nat, i < s.capacity.toNat → j < s.capacity.toNat →
      s.saddr (c + p.cursor i) = s.saddr (c + p.cursor j) → i = j

/-- R103: WRITE_BULK answers FULL and changes nothing when `free_P < n`, which is always so when `n > CAPACITY` (in a state that
meets the view invariant); else it stores payload byte `i` at the storage byte of cursor WC + i and writes no other byte, advances
WC by `n` and answers OK with VALUE n. P_USED goes up n and P_FREE down n, P_FULL is then 1 exactly when n was all the free space,
P_EMPTY is 0 when n > 0, and the C outputs stay. -/
def Obligations.WriteBulkStoresAllOrNothing : Prop :=
  ∀ (p : Params) (s : Fifo p) (n : Cursor p) (payload : List Byte), payload.length = n.toNat →
    (s.configured = false → exec (.writeBulk n.toNat payload) ⟨p, s⟩ = .next ⟨p, s.respond .p { status := .notConfigured }⟩) ∧
    (s.configured = true → s.capacity - (s.wc - s.rcSync) < n →
      exec (.writeBulk n.toNat payload) ⟨p, s⟩ = .next ⟨p, s.respond .p { status := .full }⟩) ∧
    (s.configured = true → s.ViewOk → s.capacity < n → s.capacity - (s.wc - s.rcSync) < n) ∧
    (s.configured = true → ¬ s.capacity - (s.wc - s.rcSync) < n →
      ∃ t, exec (.writeBulk n.toNat payload) ⟨p, s⟩ = .next ⟨p, t⟩ ∧
      t = { s with wc := s.wc + n, mem := t.mem, respP := s.respP ++ [{ status := .ok, value := n }] } ∧
      (∀ a, (∀ i < n.toNat, a ≠ s.saddr (s.wc + p.cursor i)) → t.memRead a = s.memRead a) ∧
      (s.ConfigOk → n.toNat ≤ s.capacity.toNat → ∀ (i : Nat) (small : i < payload.length),
        t.memRead (s.saddr (s.wc + p.cursor i)) = payload[i]) ∧
      (t.flags .producer).used = s.usedP + n ∧ (t.flags .producer).free = s.freeP - n ∧
      ((t.flags .producer).full = true ↔ n = s.freeP) ∧
      (s.ConfigOk → s.ViewOk → n ≠ 0 → (t.flags .producer).empty = false) ∧ t.flags .consumer = s.flags .consumer)

/-- R104: WRITE_BULK_TRUNC never fails: with k the smaller of n and `free_P` it stores the first k payload bytes in cursor order and
writes no other byte, advances WC by k and answers OK with VALUE k. -/
def Obligations.WriteBulkTruncStoresWhatFits : Prop :=
  ∀ (p : Params) (s : Fifo p) (n k : Cursor p) (payload : List Byte), payload.length = n.toNat →
    k.toNat = min n.toNat (s.capacity - (s.wc - s.rcSync)).toNat →
    (s.configured = false →
      exec (.writeBulkTrunc n.toNat payload) ⟨p, s⟩ = .next ⟨p, s.respond .p { status := .notConfigured }⟩) ∧
    (s.configured = true → ∃ t, exec (.writeBulkTrunc n.toNat payload) ⟨p, s⟩ = .next ⟨p, t⟩ ∧
      t = { s with wc := s.wc + k, mem := t.mem, respP := s.respP ++ [{ status := .ok, value := k }] } ∧
      (∀ a, (∀ i < k.toNat, a ≠ s.saddr (s.wc + p.cursor i)) → t.memRead a = s.memRead a) ∧
      (s.ConfigOk → k.toNat ≤ s.capacity.toNat → ∀ (i : Nat) (small : i < payload.length), i < k.toNat →
        t.memRead (s.saddr (s.wc + p.cursor i)) = payload[i]) ∧
      (t.flags .producer).used = s.usedP + k ∧ (t.flags .producer).free = s.freeP - k ∧
      ((t.flags .producer).full = true ↔ k = s.freeP) ∧
      (s.ConfigOk → s.ViewOk → k ≠ 0 → (t.flags .producer).empty = false) ∧ t.flags .consumer = s.flags .consumer)

/-- R106: READ_BULK answers EMPTY and changes nothing when `used_C < n`; else it answers the n bytes of the cursors RC, RC + 1, … in
order, advances RC by n and changes no memory. C_USED goes down n and C_FREE up n, C_EMPTY is then 1 exactly when n was all there
was, and the P outputs stay. -/
def Obligations.ReadBulkAnswersAllOrNothing : Prop :=
  ∀ (p : Params) (s : Fifo p) (n : Cursor p),
    (s.configured = false → exec (.readBulk n.toNat) ⟨p, s⟩ = .next ⟨p, s.respond .c { status := .notConfigured }⟩) ∧
    (s.configured = true → s.wcSync - s.rc < n →
      exec (.readBulk n.toNat) ⟨p, s⟩ = .next ⟨p, s.respond .c { status := .empty }⟩) ∧
    (s.configured = true → ¬ s.wcSync - s.rc < n → ∃ t data, exec (.readBulk n.toNat) ⟨p, s⟩ = .next ⟨p, t⟩ ∧
      t = { s with rc := s.rc + n, respC := s.respC ++ [{ status := .ok, value := n, payload := data }] } ∧
      data.length = n.toNat ∧
      (∀ (i : Nat) (small : i < data.length), data[i] = s.memRead (s.saddr (s.rc + p.cursor i))) ∧
      (t.flags .consumer).used = s.usedC - n ∧ (t.flags .consumer).free = s.freeC + n ∧
      ((t.flags .consumer).empty = true ↔ n = s.usedC) ∧
      (s.ConfigOk → s.ViewOk → n ≠ 0 → (t.flags .consumer).full = false) ∧ t.flags .producer = s.flags .producer)

/-- R45, R58, W2: on a synchronised core, writing n bytes that fit in bulk, letting X_W2C run and reading everything in bulk gives the
bytes that were in the FIFO and then exactly the bytes written, in order, wherever the cursors stand, wraparound included. With n = 0
nothing is to be copied, so X_W2C has no step (R119) and the run has two. -/
def Obligations.BulkWriteThenBulkReadReturnsTheBytes : Prop :=
  ∀ (p : Params) (s : Fifo p) (n : Cursor p) (payload : List Byte), s.configured = true → s.ConfigOk → s.ViewOk → s.Synchronised →
    payload.length = n.toNat → n.toNat ≤ s.freeP.toNat →
    ∃ t, steps (if n = 0 then 2 else 3) ⟨p, s.schedule
        [issue p (.writeBulk n.toNat payload), .crossW2C, issue p (.readBulk (s.usedTrue + n).toNat)]⟩ = .next ⟨p, t⟩ ∧
      t.respP = s.respP ++ [{ status := .ok, value := n }] ∧
      t.respC = s.respC ++
        [{ status := .ok, value := s.usedTrue + n, payload := s.copyOut s.rc s.usedTrue.toNat ++ payload }] ∧
      t.wc = s.wc + n ∧ t.rc = t.wc

/-! ## Linear windows -/

/-- R109, R110: LW_REGION answers the length and the address of the run from WC's offset to the end of storage and opens the window,
changing nothing else; LW_REMAINING answers the same length and changes nothing. The length is at least 1 on a legal configuration. -/
def Obligations.WriteWindowRunsFromTheWriteCursor : Prop :=
  ∀ (p : Params) (s : Fifo p),
    (s.configured = false →
      exec .lwRegion ⟨p, s⟩ = .next ⟨p, s.respond .p { status := .notConfigured }⟩ ∧
      exec .lwRemaining ⟨p, s⟩ = .next ⟨p, s.respond .p { status := .notConfigured }⟩) ∧
    (s.configured = true →
      (∃ t, exec .lwRegion ⟨p, s⟩ = .next ⟨p, t⟩ ∧
        t = { s with
          lwOpen := true,
          respP := s.respP ++ [{
            status := .ok, value := s.capacity - (s.wc &&& s.mask), raddr := s.poolBase + (s.wc &&& s.mask).setWidth p.addrW }] } ∧
        ∀ side, t.flags side = s.flags side) ∧
      exec .lwRemaining ⟨p, s⟩ = .next ⟨p, s.respond .p { status := .ok, value := s.capacity - (s.wc &&& s.mask) }⟩ ∧
      (s.ConfigOk → 1 ≤ (s.capacity - (s.wc &&& s.mask)).toNat))

/-- R112, R113: LR_REGION and LR_REMAINING, the same at RC for the consumer; at least 1 even on an empty view. -/
def Obligations.ReadWindowRunsFromTheReadCursor : Prop :=
  ∀ (p : Params) (s : Fifo p),
    (s.configured = false →
      exec .lrRegion ⟨p, s⟩ = .next ⟨p, s.respond .c { status := .notConfigured }⟩ ∧
      exec .lrRemaining ⟨p, s⟩ = .next ⟨p, s.respond .c { status := .notConfigured }⟩) ∧
    (s.configured = true →
      (∃ t, exec .lrRegion ⟨p, s⟩ = .next ⟨p, t⟩ ∧
        t = { s with
          lrOpen := true,
          respC := s.respC ++ [{
            status := .ok, value := s.capacity - (s.rc &&& s.mask), raddr := s.poolBase + (s.rc &&& s.mask).setWidth p.addrW }] } ∧
        ∀ side, t.flags side = s.flags side) ∧
      exec .lrRemaining ⟨p, s⟩ = .next ⟨p, s.respond .c { status := .ok, value := s.capacity - (s.rc &&& s.mask) }⟩ ∧
      (s.ConfigOk → 1 ≤ (s.capacity - (s.rc &&& s.mask)).toNat))

/-- R107: on a legal configuration the window at any cursor has a length from 1 to CAPACITY, starts at a storage address and ends
exactly where storage ends. -/
def Obligations.WindowsEndWhereStorageEnds : Prop :=
  ∀ (p : Params) (s : Fifo p) (c : Cursor p), s.configured = true → s.ConfigOk →
    1 ≤ (s.windowAt c).value.toNat ∧ (s.windowAt c).value.toNat ≤ s.capacity.toNat ∧
    s.inStorage (s.windowAt c).raddr = true ∧
    (s.windowAt c).raddr.toNat + (s.windowAt c).value.toNat = s.poolBase.toNat + s.capacity.toNat

/-- R111: LW_FINISH advances WC by n whatever n is, closes the window and answers OK; it records LwFinishBeyondRegion exactly when n
exceeds the window and LwFinishBeyondFree exactly when n exceeds `free_P`, both when both apply, and changes nothing else. -/
def Obligations.WriteFinishCommitsUncheckedAndRecordsBrokenDuties : Prop :=
  ∀ (p : Params) (s : Fifo p) (n : Cursor p),
    (s.configured = false → exec (.lwFinish n.toNat) ⟨p, s⟩ = .next ⟨p, s.respond .p { status := .notConfigured }⟩) ∧
    (s.configured = true → ∃ t, exec (.lwFinish n.toNat) ⟨p, s⟩ = .next ⟨p, t⟩ ∧
      t = { s with
        wc := s.wc + n, lwOpen := false, faults := t.faults, respP := s.respP ++ [{ status := .ok }] } ∧
      (∀ k, k ∈ t.faults ↔ k ∈ s.faults ∨
        (k = .lwFinishBeyondRegion ∧ s.capacity - (s.wc &&& s.mask) < n) ∨
        (k = .lwFinishBeyondFree ∧ s.capacity - (s.wc - s.rcSync) < n)) ∧
      (t.flags .producer).used = s.usedP + n ∧ (t.flags .producer).free = s.freeP - n ∧
      t.flags .consumer = s.flags .consumer)

/-- R114: LR_FINISH, the same for the consumer: RC, LrFinishBeyondRegion against the window and LrFinishBeyondUsed against
`used_C`. -/
def Obligations.ReadFinishReleasesUncheckedAndRecordsBrokenDuties : Prop :=
  ∀ (p : Params) (s : Fifo p) (n : Cursor p),
    (s.configured = false → exec (.lrFinish n.toNat) ⟨p, s⟩ = .next ⟨p, s.respond .c { status := .notConfigured }⟩) ∧
    (s.configured = true → ∃ t, exec (.lrFinish n.toNat) ⟨p, s⟩ = .next ⟨p, t⟩ ∧
      t = { s with
        rc := s.rc + n, lrOpen := false, faults := t.faults, respC := s.respC ++ [{ status := .ok }] } ∧
      (∀ k, k ∈ t.faults ↔ k ∈ s.faults ∨
        (k = .lrFinishBeyondRegion ∧ s.capacity - (s.rc &&& s.mask) < n) ∨
        (k = .lrFinishBeyondUsed ∧ s.wcSync - s.rc < n)) ∧
      (t.flags .consumer).used = s.usedC - n ∧ (t.flags .consumer).free = s.freeC + n ∧
      t.flags .producer = s.flags .producer)

/-- R83, W7 with the correction of 90_conflicts.md C2: a DMA_FILL of bytes that fit both the window and the free space runs without
a model fault and leaves the same memory and the same WC as one WRITE_BULK of those bytes, and the window closed. That the window is
taken from the state before the line, and that its steps are consecutive, is the model's reading (log 13). -/
def Obligations.ZeroCopyFillEqualsOneBulkWrite : Prop :=
  ∀ (p : Params) (s : Fifo p) (bytes : List Byte), s.Inv → s.ContractKept → s.configured = true →
    bytes.length ≤ s.remainIn.toNat → bytes.length ≤ s.freeP.toNat →
    ∃ moves t u, (Line.dmaFill bytes).steps s = some moves ∧ steps moves.length ⟨p, s.schedule moves⟩ = .next ⟨p, t⟩ ∧
      exec (.writeBulk bytes.length bytes) ⟨p, s⟩ = .next ⟨p, u⟩ ∧
      t.mem = u.mem ∧ t.wc = u.wc ∧ t.ContractKept ∧ t.lwOpen = false

/-- R83: a DMA_DRAIN of k bytes that fit both the window and the occupancy gives EXT the bytes one READ_BULK of k answers, in order,
without a model fault, and leaves the same RC and memory, and the window closed. That the window is taken from the state before the
line, and that its steps are consecutive, is the model's reading (log 13). -/
def Obligations.ZeroCopyDrainEqualsOneBulkRead : Prop :=
  ∀ (p : Params) (s : Fifo p) (k : Cursor p), s.Inv → s.ContractKept → s.configured = true →
    k.toNat ≤ s.remainOut.toNat → k.toNat ≤ s.usedC.toNat →
    ∃ moves t u data, (Line.dmaDrain k).steps s = some moves ∧ steps moves.length ⟨p, s.schedule moves⟩ = .next ⟨p, t⟩ ∧
      exec (.readBulk k.toNat) ⟨p, s⟩ = .next ⟨p, u⟩ ∧
      u.respC = s.respC ++ [{ status := .ok, value := k, payload := data }] ∧ t.extReads = s.extReads ++ data ∧
      t.mem = u.mem ∧ t.rc = u.rc ∧ t.ContractKept ∧ t.lrOpen = false

/-! ## Crossings and the external bus master -/

/-- R118, R119: a crossing is enabled exactly when the copy differs from the cursor; when the oldest agent step is an enabled crossing,
the copy takes the whole current cursor; no response, no model fault, and the other side's outputs stay. -/
def Obligations.CrossingsCopyTheWholeCursor : Prop :=
  ∀ (p : Params) (s : Fifo p) (rest : List (AgentStep p)),
    (s.r2pEnabled = true ↔ s.rcSync ≠ s.rc) ∧ (s.w2cEnabled = true ↔ s.wcSync ≠ s.wc) ∧
    (s.inputs = .crossR2P :: rest → s.r2pEnabled = true →
      ∃ t, step ⟨p, s⟩ = .next ⟨p, t⟩ ∧ t = { s with inputs := rest, rcSync := s.rc } ∧ t.usedP = s.wc - s.rc ∧
        t.flags .consumer = s.flags .consumer) ∧
    (s.inputs = .crossW2C :: rest → s.w2cEnabled = true →
      ∃ t, step ⟨p, s⟩ = .next ⟨p, t⟩ ∧ t = { s with inputs := rest, wcSync := s.wc } ∧ t.usedC = s.wc - s.rc ∧
        t.flags .producer = s.flags .producer)

/-- R118, R119: a crossing that is not enabled has no step; and one that is listed all the same, as the oldest agent step, is passed
over: the machine's step is the one it takes with the crossing off the list. That a list may hold it and that it is passed over is the
model's choice (log 5, DEDUCED). -/
def Obligations.DisabledCrossingsHaveNoStep : Prop :=
  ∀ (p : Params) (s : Fifo p) (rest : List (AgentStep p)),
    (s.r2pEnabled = false → (∀ t, agentStep ⟨p, s⟩ .crossR2P ≠ .next t) ∧
      (s.inputs = .crossR2P :: rest → step ⟨p, s⟩ = step ⟨p, { s with inputs := rest }⟩)) ∧
    (s.w2cEnabled = false → (∀ t, agentStep ⟨p, s⟩ .crossW2C ≠ .next t) ∧
      (s.inputs = .crossW2C :: rest → step ⟨p, s⟩ = step ⟨p, { s with inputs := rest }⟩))

/-- R118, R119: the crossings have no infinite run of no-op steps: in an endless run every step of a crossing changes its copy, and from
every step on some other agent moves again. -/
def Obligations.CrossingsHaveNoEndlessRunOfTheirOwn : Prop :=
  ∀ (p : Params) (schedule : Nat → AgentStep p) (states : Nat → Fifo p), EndlessRun schedule states → ∀ n,
    (schedule n = .crossR2P → (states (n + 1)).rcSync ≠ (states n).rcSync) ∧
    (schedule n = .crossW2C → (states (n + 1)).wcSync ≠ (states n).wcSync) ∧
    ∃ m, n ≤ m ∧ schedule m ≠ .crossR2P ∧ schedule m ≠ .crossW2C

/-- R121: in every fair endless run, from every state on, each copy is equal to its cursor again at some later state: no crossing is
starved, whatever the other agents do. -/
def Obligations.FairRunsCopyEachCursorAgainAndAgain : Prop :=
  ∀ (p : Params) (schedule : Nat → AgentStep p) (states : Nat → Fifo p), FairRun schedule states → ∀ n,
    (∃ m, n ≤ m ∧ (states m).rcSync = (states m).rc) ∧ ∃ m, n ≤ m ∧ (states m).wcSync = (states m).wc

/-- R121: in every fair endless run, once WC has stopped moving the consumer's view becomes the true occupancy and stays so, and a
consumer that polls USED is answered it; once RC has stopped moving the same holds of the producer, and a producer that polls FREE is
answered the true free space. -/
def Obligations.PollingIsAnsweredTheTruthInFairRuns : Prop :=
  ∀ (p : Params) (schedule : Nat → AgentStep p) (states : Nat → Fifo p), FairRun schedule states → ∀ n,
    ((∀ m, n ≤ m → (states m).wc = (states n).wc) → ∃ k, n ≤ k ∧ ∀ m, k ≤ m → (states m).configured = true →
      exec (.used .consumer) ⟨p, states m⟩ =
        .next ⟨p, (states m).respond .c { status := .ok, value := (states m).wc - (states m).rc }⟩) ∧
    ((∀ m, n ≤ m → (states m).rc = (states n).rc) → ∃ k, n ≤ k ∧ ∀ m, k ≤ m → (states m).configured = true →
      exec (.free .producer) ⟨p, states m⟩ = .next ⟨p, (states m).respond .p {
        status := .ok, value := (states m).capacity - ((states m).wc - (states m).rc) }⟩)

/-- Every beginning of an endless run is a run of the machine: the schedule's first n agent steps, listed, take the machine from the
run's first state to its state n. This relates the two ways in which the model holds a schedule, the list `inputs` and the endless
function, and both are the model's choice (log 3, DESIGN CHOICE); no rule states it. -/
def Obligations.EveryPrefixOfAnEndlessRunIsARunOfTheMachine : Prop :=
  ∀ (p : Params) (schedule : Nat → AgentStep p) (states : Nat → Fifo p), EndlessRun schedule states → ∀ n,
    steps n ⟨p, (states 0).schedule ((List.range n).map schedule)⟩ = .next ⟨p, states n⟩

/-- R49, R51, R66: an external write always writes its byte and no other, and it records ExtWriteCommitted exactly when the core is
configured and some cursor value of [RC, WC) has its storage byte at that address. -/
def Obligations.ExternalWriteRecordsExactlyCommittedBytes : Prop :=
  ∀ (p : Params) (s : Fifo p) (a : Addr p) (v : Byte) (rest : List (AgentStep p)), s.ConfigOk → s.inputs = .extWrite a v :: rest →
    ∃ t, step ⟨p, s⟩ = .next ⟨p, t⟩ ∧ t = { s with inputs := rest, mem := t.mem, faults := t.faults } ∧
      t.memRead a = v ∧ (∀ b, b ≠ a → t.memRead b = s.memRead b) ∧
      ∀ k, k ∈ t.faults ↔ k ∈ s.faults ∨
        (k = .extWriteCommitted ∧ s.configured = true ∧ ∃ c : Cursor p, c - s.rc < s.wc - s.rc ∧ s.saddr c = a)

/-- R49, R52: an external read gives EXT the byte memory holds and does nothing else. -/
def Obligations.ExternalReadChangesNothing : Prop :=
  ∀ (p : Params) (s : Fifo p) (a : Addr p) (rest : List (AgentStep p)), s.inputs = .extRead a :: rest →
    step ⟨p, s⟩ = .next ⟨p, { s with inputs := rest, extReads := s.extReads ++ [s.memRead a] }⟩

/-- R122: in a synchronised state both views are the true occupancy. -/
def Obligations.SynchronisedViewsAgree : Prop :=
  ∀ (p : Params) (s : Fifo p), s.Synchronised → s.usedP = s.usedTrue ∧ s.usedC = s.usedTrue ∧ s.freeP = s.freeC

/-! ## Flag outputs -/

/-- R33, R34: the eight outputs: from each side's view while configured, with used and free adding to CAPACITY, and the forced values
while not. -/
def Obligations.FlagOutputsFollowTheViews : Prop :=
  ∀ (p : Params) (s : Fifo p),
    (s.configured = true →
      s.flags .producer = {
        used := s.wc - s.rcSync, free := s.capacity - (s.wc - s.rcSync),
        full := decide (s.capacity - (s.wc - s.rcSync) = 0), empty := decide (s.wc - s.rcSync = 0) } ∧
      s.flags .consumer = {
        used := s.wcSync - s.rc, free := s.capacity - (s.wcSync - s.rc),
        full := decide (s.capacity - (s.wcSync - s.rc) = 0), empty := decide (s.wcSync - s.rc = 0) } ∧
      ∀ side, (s.flags side).used + (s.flags side).free = s.capacity) ∧
    (s.configured = false → ∀ side, s.flags side = { used := 0, free := 0, full := true, empty := true })

/-- R35: no command of the producer port changes an output of the consumer side, and no command of the consumer port one of the
producer side. -/
def Obligations.CommandsLeaveTheOtherSidesFlags : Prop :=
  ∀ (p : Params) (i : Instr) (s t : Fifo p), exec i ⟨p, s⟩ = .next ⟨p, t⟩ →
    (i.port = .p → t.flags .consumer = s.flags .consumer) ∧ (i.port = .c → t.flags .producer = s.flags .producer)

/-! ## Rules of the whole machine -/

/-- R21, R22: only INIT (and power-on reset) writes POOL_BASE, CAPACITY, MASK or CONFIGURED. -/
def Obligations.OnlyInitWritesTheConfiguration : Prop :=
  ∀ (p : Params) (s t : Fifo p), step ⟨p, s⟩ = .next ⟨p, t⟩ →
    (t.poolBase ≠ s.poolBase ∨ t.capacity ≠ s.capacity ∨ t.mask ≠ s.mask ∨ t.configured ≠ s.configured) →
    s.due.head? = some .powerOn ∨ ∃ base size, s.Runs (.init base size)

/-- R21, R26 to R29: which steps write each of the four cursor registers; a crossing may also step when no agent step is left
(log 4). -/
def Obligations.EachCursorHasItsOwnWriters : Prop :=
  ∀ (p : Params) (s t : Fifo p), step ⟨p, s⟩ = .next ⟨p, t⟩ →
    (t.wc ≠ s.wc →
      s.due.head? = some .powerOn ∨ s.Runs .reset ∨ (∃ base size, s.Runs (.init base size)) ∨
      (∃ byte, s.Runs (.writeOne byte)) ∨ (∃ n payload, s.Runs (.writeBulk n payload)) ∨
      (∃ n payload, s.Runs (.writeBulkTrunc n payload)) ∨ ∃ n, s.Runs (.lwFinish n)) ∧
    (t.rc ≠ s.rc →
      s.due.head? = some .powerOn ∨ s.Runs .reset ∨ (∃ base size, s.Runs (.init base size)) ∨
      s.Runs .readOne ∨ (∃ n, s.Runs (.readBulk n)) ∨ ∃ n, s.Runs (.lrFinish n)) ∧
    (t.rcSync ≠ s.rcSync →
      s.due = [] ∨ s.due.head? = some .crossR2P ∨ s.due.head? = some .powerOn ∨ s.Runs .reset ∨
      ∃ base size, s.Runs (.init base size)) ∧
    (t.wcSync ≠ s.wcSync →
      s.due = [] ∨ s.due.head? = some .crossW2C ∨ s.due.head? = some .powerOn ∨ s.Runs .reset ∨
      ∃ base size, s.Runs (.init base size))

/-- R65, R102: memory changes only in a producer's write or an external write; every other step, every crossing, INIT, RESET and
power-on among them, leaves every byte. -/
def Obligations.OnlyWritesChangeMemory : Prop :=
  ∀ (p : Params) (s t : Fifo p), step ⟨p, s⟩ = .next ⟨p, t⟩ → (∃ a, t.memRead a ≠ s.memRead a) →
    (∃ a v, s.due.head? = some (.extWrite a v)) ∨ (∃ byte, s.Runs (.writeOne byte)) ∨
    (∃ n payload, s.Runs (.writeBulk n payload)) ∨ ∃ n payload, s.Runs (.writeBulkTrunc n payload)

/-- R38: nothing removes a model fault from FAULTS. -/
def Obligations.ModelFaultsAreSticky : Prop :=
  ∀ (p : Params) (s t : Fifo p) (k : ModelFault), step ⟨p, s⟩ = .next ⟨p, t⟩ → k ∈ s.faults → k ∈ t.faults

/-- R21, R39, R87: a side's commands depend on nothing of the other side's: two states that agree on the configuration, on the side's
own two cursor registers and on memory give the same answer, the same own cursor and, for the producer, the same memory. -/
def Obligations.EachSideSeesOnlyItsOwnView : Prop :=
  ∀ (p : Params) (i : Instr) (s s' t t' : Fifo p), exec i ⟨p, s⟩ = .next ⟨p, t⟩ → exec i ⟨p, s'⟩ = .next ⟨p, t'⟩ →
    s.configured = s'.configured → s.poolBase = s'.poolBase → s.capacity = s'.capacity → s.mask = s'.mask → s.mem = s'.mem →
    (i.port = .p → s.wc = s'.wc → s.rcSync = s'.rcSync → s.respP = s'.respP →
      t.respP = t'.respP ∧ t.wc = t'.wc ∧ t.mem = t'.mem) ∧
    (i.port = .c → s.rc = s'.rc → s.wcSync = s'.wcSync → s.respC = s'.respC →
      t.respC = t'.respC ∧ t.rc = t'.rc ∧ t.mem = t'.mem)

/-- R23, R48: on a legal configuration `c & MASK` is `c mod CAPACITY` and every address the core forms lies in the storage region. -/
def Obligations.EveryAddressFormedLiesInStorage : Prop :=
  ∀ (p : Params) (s : Fifo p) (c : Cursor p), s.configured = true → s.ConfigOk →
    (s.off c).toNat = c.toNat % s.capacity.toNat ∧
    (s.saddr c).toNat = s.poolBase.toNat + c.toNat % s.capacity.toNat ∧ s.inStorage (s.saddr c) = true

/-- R31, R32: while no model fault is recorded each view is on the safe side of the truth: the consumer sees no more than there is, the
producer no less, and neither more than CAPACITY. -/
def Obligations.ViewsAreOnTheSafeSide : Prop :=
  ∀ (p : Params) (s : Fifo p), s.Inv → s.ContractKept →
    s.usedC.toNat ≤ s.usedTrue.toNat ∧ s.usedTrue.toNat ≤ s.usedP.toNat ∧ s.usedP.toNat ≤ s.capacity.toNat ∧
    s.freeP.toNat ≤ s.capacity.toNat - s.usedTrue.toNat

/-- R50: while no model fault is recorded no command, on any port, changes a committed byte. -/
def Obligations.NoCommandOverwritesACommittedByte : Prop :=
  ∀ (p : Params) (i : Instr) (s t : Fifo p) (a : Addr p), s.Inv → s.ContractKept → s.configured = true →
      exec i ⟨p, s⟩ = .next ⟨p, t⟩ →
    s.committed a = true → t.memRead a = s.memRead a

/-- R50: while no model fault is recorded every byte a consumer command returns is a committed byte of memory: READ_ONE and PEEK_ONE
return the one at RC's storage byte, and byte `i` of READ_BULK's payload is the one at the storage byte of RC + i. -/
def Obligations.ConsumerCommandsReturnOnlyCommittedBytes : Prop :=
  ∀ (p : Params) (i : Instr) (s t : Fifo p) (r : Response p), s.Inv → s.ContractKept → s.configured = true →
    exec i ⟨p, s⟩ = .next ⟨p, t⟩ → t.respC = s.respC ++ [r] → r.status = .ok →
    (i = .readOne ∨ i = .peekOne → s.committed (s.saddr s.rc) = true ∧ r.rdata = s.memRead (s.saddr s.rc)) ∧
    ∀ n, i = .readBulk n → ∀ (k : Nat) (inside : k < r.payload.length),
      s.committed (s.saddr (s.rc + p.cursor k)) = true ∧ r.payload[k] = s.memRead (s.saddr (s.rc + p.cursor k))

/-- R23, R31, R32, R41: every step, of any agent, at any width, keeps the invariant: canonical memory and FAULTS, a legal configuration
with its mask while configured, and the view invariant while no model fault is recorded. -/
def Obligations.StepKeepsTheInvariant : Prop :=
  ∀ s t : State, s.fifo.Inv → step s = .next t → t.fifo.Inv
end

