-- ==== Sys2Proof/Laws/Encoding.lean ====
section
/-! SUPPORT. The fields of a packed word are what was packed (R68, R76, R84). -/

namespace Sys2Proof

variable {p : Params}

/-- OP of a packed word. -/
theorem fieldOp_packWord (lo data : Byte) (arg : Cursor p) (addr : Addr p) :
    fieldOp (packWord lo data arg addr : CmdWord p) = lo := by
  unfold fieldOp packWord
  ext i hi
  have h16 : i < 16 := by omega
  have h48 : i < 16 + p.cursorW := by omega
  have h80 : i < 16 + p.cursorW + p.addrW := by omega
  simp [hi, h16, h48, h80]

/-- DATA of a packed word. -/
theorem fieldData_packWord (lo data : Byte) (arg : Cursor p) (addr : Addr p) :
    fieldData (packWord lo data arg addr : CmdWord p) = data := by
  unfold fieldData packWord
  ext i hi
  have h16 : 8 + i < 16 := by omega
  have h48 : 8 + i < 16 + p.cursorW := by omega
  have h80 : 8 + i < 16 + p.cursorW + p.addrW := by omega
  simp [hi, h16, h48, h80]

/-- ARG of a packed word. -/
theorem fieldArg_packWord (lo data : Byte) (arg : Cursor p) (addr : Addr p) :
    argField (packWord lo data arg addr : CmdWord p) = arg := by
  unfold argField fieldArg packWord
  ext i hi
  have h48 : 16 + i < 16 + p.cursorW := by omega
  have h80 : 16 + i < 16 + p.cursorW + p.addrW := by omega
  have lo_ends : lo.getLsbD (16 + i) = false := BitVec.getLsbD_of_ge _ _ (by omega)
  have data_ends : data.getLsbD (16 + i - 8) = false := BitVec.getLsbD_of_ge _ _ (by omega)
  simp [hi, h48, h80, lo_ends, data_ends]

/-- ADDR of a packed word. -/
theorem fieldAddr_packWord (lo data : Byte) (arg : Cursor p) (addr : Addr p) :
    addrField (packWord lo data arg addr : CmdWord p) = addr := by
  unfold addrField fieldAddr packWord
  ext i hi
  have h80 : 16 + p.cursorW + i < 16 + p.cursorW + p.addrW := by omega
  have lo_ends : lo.getLsbD (16 + p.cursorW + i) = false := BitVec.getLsbD_of_ge _ _ (by omega)
  have data_ends : data.getLsbD (16 + p.cursorW + i - 8) = false := BitVec.getLsbD_of_ge _ _ (by omega)
  have arg_ends : arg.getLsbD (16 + p.cursorW + i - 16) = false := BitVec.getLsbD_of_ge _ _ (by omega)
  simp [hi, h80, lo_ends, data_ends, arg_ends]

end Sys2Proof
end

