-- ==== Sys2Proof/Laws/State.lean ====
section
/-! SUPPORT. One lemma per field per update of the machine at given widths, so that no later proof unfolds a record update. -/

namespace Sys2Proof.Machine

/-- The kinds after recording one: that one and those that were there. -/
@[simp] theorem FaultSet.mem_add (kind k : ModelFault) (kinds : List ModelFault) :
    k ∈ FaultSet.add kind kinds ↔ k = kind ∨ k ∈ kinds := by
  induction kinds with
  | nil => simp [FaultSet.add]
  | cons first kinds ih =>
    unfold FaultSet.add
    split_ifs with equal below
    · subst equal
      simp
    · simp
    · simp [ih, or_left_comm]

variable {p : Params} (s : Fifo p)

/-! ### memWrite -/

@[simp] theorem Fifo.memWrite_configured (a : Addr p) (v : Byte) : (s.memWrite a v).configured = s.configured := rfl
@[simp] theorem Fifo.memWrite_poolBase (a : Addr p) (v : Byte) : (s.memWrite a v).poolBase = s.poolBase := rfl
@[simp] theorem Fifo.memWrite_capacity (a : Addr p) (v : Byte) : (s.memWrite a v).capacity = s.capacity := rfl
@[simp] theorem Fifo.memWrite_mask (a : Addr p) (v : Byte) : (s.memWrite a v).mask = s.mask := rfl
@[simp] theorem Fifo.memWrite_wc (a : Addr p) (v : Byte) : (s.memWrite a v).wc = s.wc := rfl
@[simp] theorem Fifo.memWrite_rc (a : Addr p) (v : Byte) : (s.memWrite a v).rc = s.rc := rfl
@[simp] theorem Fifo.memWrite_rcSync (a : Addr p) (v : Byte) : (s.memWrite a v).rcSync = s.rcSync := rfl
@[simp] theorem Fifo.memWrite_wcSync (a : Addr p) (v : Byte) : (s.memWrite a v).wcSync = s.wcSync := rfl
@[simp] theorem Fifo.memWrite_lwOpen (a : Addr p) (v : Byte) : (s.memWrite a v).lwOpen = s.lwOpen := rfl
@[simp] theorem Fifo.memWrite_lrOpen (a : Addr p) (v : Byte) : (s.memWrite a v).lrOpen = s.lrOpen := rfl
@[simp] theorem Fifo.memWrite_faults (a : Addr p) (v : Byte) : (s.memWrite a v).faults = s.faults := rfl
@[simp] theorem Fifo.memWrite_mem (a : Addr p) (v : Byte) : (s.memWrite a v).mem = Memory.insert s.mem a.toNat v := rfl
@[simp] theorem Fifo.memWrite_inputs (a : Addr p) (v : Byte) : (s.memWrite a v).inputs = s.inputs := rfl
@[simp] theorem Fifo.memWrite_respP (a : Addr p) (v : Byte) : (s.memWrite a v).respP = s.respP := rfl
@[simp] theorem Fifo.memWrite_respC (a : Addr p) (v : Byte) : (s.memWrite a v).respC = s.respC := rfl
@[simp] theorem Fifo.memWrite_respK (a : Addr p) (v : Byte) : (s.memWrite a v).respK = s.respK := rfl
@[simp] theorem Fifo.memWrite_extReads (a : Addr p) (v : Byte) : (s.memWrite a v).extReads = s.extReads := rfl

/-! ### setWc -/

@[simp] theorem Fifo.setWc_configured (c : Cursor p) : (s.setWc c).configured = s.configured := rfl
@[simp] theorem Fifo.setWc_poolBase (c : Cursor p) : (s.setWc c).poolBase = s.poolBase := rfl
@[simp] theorem Fifo.setWc_capacity (c : Cursor p) : (s.setWc c).capacity = s.capacity := rfl
@[simp] theorem Fifo.setWc_mask (c : Cursor p) : (s.setWc c).mask = s.mask := rfl
@[simp] theorem Fifo.setWc_wc (c : Cursor p) : (s.setWc c).wc = c := rfl
@[simp] theorem Fifo.setWc_rc (c : Cursor p) : (s.setWc c).rc = s.rc := rfl
@[simp] theorem Fifo.setWc_rcSync (c : Cursor p) : (s.setWc c).rcSync = s.rcSync := rfl
@[simp] theorem Fifo.setWc_wcSync (c : Cursor p) : (s.setWc c).wcSync = s.wcSync := rfl
@[simp] theorem Fifo.setWc_lwOpen (c : Cursor p) : (s.setWc c).lwOpen = s.lwOpen := rfl
@[simp] theorem Fifo.setWc_lrOpen (c : Cursor p) : (s.setWc c).lrOpen = s.lrOpen := rfl
@[simp] theorem Fifo.setWc_faults (c : Cursor p) : (s.setWc c).faults = s.faults := rfl
@[simp] theorem Fifo.setWc_mem (c : Cursor p) : (s.setWc c).mem = s.mem := rfl
@[simp] theorem Fifo.setWc_inputs (c : Cursor p) : (s.setWc c).inputs = s.inputs := rfl
@[simp] theorem Fifo.setWc_respP (c : Cursor p) : (s.setWc c).respP = s.respP := rfl
@[simp] theorem Fifo.setWc_respC (c : Cursor p) : (s.setWc c).respC = s.respC := rfl
@[simp] theorem Fifo.setWc_respK (c : Cursor p) : (s.setWc c).respK = s.respK := rfl
@[simp] theorem Fifo.setWc_extReads (c : Cursor p) : (s.setWc c).extReads = s.extReads := rfl

/-! ### setRc -/

@[simp] theorem Fifo.setRc_configured (c : Cursor p) : (s.setRc c).configured = s.configured := rfl
@[simp] theorem Fifo.setRc_poolBase (c : Cursor p) : (s.setRc c).poolBase = s.poolBase := rfl
@[simp] theorem Fifo.setRc_capacity (c : Cursor p) : (s.setRc c).capacity = s.capacity := rfl
@[simp] theorem Fifo.setRc_mask (c : Cursor p) : (s.setRc c).mask = s.mask := rfl
@[simp] theorem Fifo.setRc_wc (c : Cursor p) : (s.setRc c).wc = s.wc := rfl
@[simp] theorem Fifo.setRc_rc (c : Cursor p) : (s.setRc c).rc = c := rfl
@[simp] theorem Fifo.setRc_rcSync (c : Cursor p) : (s.setRc c).rcSync = s.rcSync := rfl
@[simp] theorem Fifo.setRc_wcSync (c : Cursor p) : (s.setRc c).wcSync = s.wcSync := rfl
@[simp] theorem Fifo.setRc_lwOpen (c : Cursor p) : (s.setRc c).lwOpen = s.lwOpen := rfl
@[simp] theorem Fifo.setRc_lrOpen (c : Cursor p) : (s.setRc c).lrOpen = s.lrOpen := rfl
@[simp] theorem Fifo.setRc_faults (c : Cursor p) : (s.setRc c).faults = s.faults := rfl
@[simp] theorem Fifo.setRc_mem (c : Cursor p) : (s.setRc c).mem = s.mem := rfl
@[simp] theorem Fifo.setRc_inputs (c : Cursor p) : (s.setRc c).inputs = s.inputs := rfl
@[simp] theorem Fifo.setRc_respP (c : Cursor p) : (s.setRc c).respP = s.respP := rfl
@[simp] theorem Fifo.setRc_respC (c : Cursor p) : (s.setRc c).respC = s.respC := rfl
@[simp] theorem Fifo.setRc_respK (c : Cursor p) : (s.setRc c).respK = s.respK := rfl
@[simp] theorem Fifo.setRc_extReads (c : Cursor p) : (s.setRc c).extReads = s.extReads := rfl

/-! ### setRcSync -/

@[simp] theorem Fifo.setRcSync_configured (c : Cursor p) : (s.setRcSync c).configured = s.configured := rfl
@[simp] theorem Fifo.setRcSync_poolBase (c : Cursor p) : (s.setRcSync c).poolBase = s.poolBase := rfl
@[simp] theorem Fifo.setRcSync_capacity (c : Cursor p) : (s.setRcSync c).capacity = s.capacity := rfl
@[simp] theorem Fifo.setRcSync_mask (c : Cursor p) : (s.setRcSync c).mask = s.mask := rfl
@[simp] theorem Fifo.setRcSync_wc (c : Cursor p) : (s.setRcSync c).wc = s.wc := rfl
@[simp] theorem Fifo.setRcSync_rc (c : Cursor p) : (s.setRcSync c).rc = s.rc := rfl
@[simp] theorem Fifo.setRcSync_rcSync (c : Cursor p) : (s.setRcSync c).rcSync = c := rfl
@[simp] theorem Fifo.setRcSync_wcSync (c : Cursor p) : (s.setRcSync c).wcSync = s.wcSync := rfl
@[simp] theorem Fifo.setRcSync_lwOpen (c : Cursor p) : (s.setRcSync c).lwOpen = s.lwOpen := rfl
@[simp] theorem Fifo.setRcSync_lrOpen (c : Cursor p) : (s.setRcSync c).lrOpen = s.lrOpen := rfl
@[simp] theorem Fifo.setRcSync_faults (c : Cursor p) : (s.setRcSync c).faults = s.faults := rfl
@[simp] theorem Fifo.setRcSync_mem (c : Cursor p) : (s.setRcSync c).mem = s.mem := rfl
@[simp] theorem Fifo.setRcSync_inputs (c : Cursor p) : (s.setRcSync c).inputs = s.inputs := rfl
@[simp] theorem Fifo.setRcSync_respP (c : Cursor p) : (s.setRcSync c).respP = s.respP := rfl
@[simp] theorem Fifo.setRcSync_respC (c : Cursor p) : (s.setRcSync c).respC = s.respC := rfl
@[simp] theorem Fifo.setRcSync_respK (c : Cursor p) : (s.setRcSync c).respK = s.respK := rfl
@[simp] theorem Fifo.setRcSync_extReads (c : Cursor p) : (s.setRcSync c).extReads = s.extReads := rfl

/-! ### setWcSync -/

@[simp] theorem Fifo.setWcSync_configured (c : Cursor p) : (s.setWcSync c).configured = s.configured := rfl
@[simp] theorem Fifo.setWcSync_poolBase (c : Cursor p) : (s.setWcSync c).poolBase = s.poolBase := rfl
@[simp] theorem Fifo.setWcSync_capacity (c : Cursor p) : (s.setWcSync c).capacity = s.capacity := rfl
@[simp] theorem Fifo.setWcSync_mask (c : Cursor p) : (s.setWcSync c).mask = s.mask := rfl
@[simp] theorem Fifo.setWcSync_wc (c : Cursor p) : (s.setWcSync c).wc = s.wc := rfl
@[simp] theorem Fifo.setWcSync_rc (c : Cursor p) : (s.setWcSync c).rc = s.rc := rfl
@[simp] theorem Fifo.setWcSync_rcSync (c : Cursor p) : (s.setWcSync c).rcSync = s.rcSync := rfl
@[simp] theorem Fifo.setWcSync_wcSync (c : Cursor p) : (s.setWcSync c).wcSync = c := rfl
@[simp] theorem Fifo.setWcSync_lwOpen (c : Cursor p) : (s.setWcSync c).lwOpen = s.lwOpen := rfl
@[simp] theorem Fifo.setWcSync_lrOpen (c : Cursor p) : (s.setWcSync c).lrOpen = s.lrOpen := rfl
@[simp] theorem Fifo.setWcSync_faults (c : Cursor p) : (s.setWcSync c).faults = s.faults := rfl
@[simp] theorem Fifo.setWcSync_mem (c : Cursor p) : (s.setWcSync c).mem = s.mem := rfl
@[simp] theorem Fifo.setWcSync_inputs (c : Cursor p) : (s.setWcSync c).inputs = s.inputs := rfl
@[simp] theorem Fifo.setWcSync_respP (c : Cursor p) : (s.setWcSync c).respP = s.respP := rfl
@[simp] theorem Fifo.setWcSync_respC (c : Cursor p) : (s.setWcSync c).respC = s.respC := rfl
@[simp] theorem Fifo.setWcSync_respK (c : Cursor p) : (s.setWcSync c).respK = s.respK := rfl
@[simp] theorem Fifo.setWcSync_extReads (c : Cursor p) : (s.setWcSync c).extReads = s.extReads := rfl

/-! ### zeroCursors -/

@[simp] theorem Fifo.zeroCursors_configured : s.zeroCursors.configured = s.configured := rfl
@[simp] theorem Fifo.zeroCursors_poolBase : s.zeroCursors.poolBase = s.poolBase := rfl
@[simp] theorem Fifo.zeroCursors_capacity : s.zeroCursors.capacity = s.capacity := rfl
@[simp] theorem Fifo.zeroCursors_mask : s.zeroCursors.mask = s.mask := rfl
@[simp] theorem Fifo.zeroCursors_wc : s.zeroCursors.wc = 0 := rfl
@[simp] theorem Fifo.zeroCursors_rc : s.zeroCursors.rc = 0 := rfl
@[simp] theorem Fifo.zeroCursors_rcSync : s.zeroCursors.rcSync = 0 := rfl
@[simp] theorem Fifo.zeroCursors_wcSync : s.zeroCursors.wcSync = 0 := rfl
@[simp] theorem Fifo.zeroCursors_lwOpen : s.zeroCursors.lwOpen = s.lwOpen := rfl
@[simp] theorem Fifo.zeroCursors_lrOpen : s.zeroCursors.lrOpen = s.lrOpen := rfl
@[simp] theorem Fifo.zeroCursors_faults : s.zeroCursors.faults = s.faults := rfl
@[simp] theorem Fifo.zeroCursors_mem : s.zeroCursors.mem = s.mem := rfl
@[simp] theorem Fifo.zeroCursors_inputs : s.zeroCursors.inputs = s.inputs := rfl
@[simp] theorem Fifo.zeroCursors_respP : s.zeroCursors.respP = s.respP := rfl
@[simp] theorem Fifo.zeroCursors_respC : s.zeroCursors.respC = s.respC := rfl
@[simp] theorem Fifo.zeroCursors_respK : s.zeroCursors.respK = s.respK := rfl
@[simp] theorem Fifo.zeroCursors_extReads : s.zeroCursors.extReads = s.extReads := rfl

/-! ### bind -/

@[simp] theorem Fifo.bind_configured (base : Addr p) (size : Cursor p) : (s.bind base size).configured = s.configured := rfl
@[simp] theorem Fifo.bind_poolBase (base : Addr p) (size : Cursor p) : (s.bind base size).poolBase = base := rfl
@[simp] theorem Fifo.bind_capacity (base : Addr p) (size : Cursor p) : (s.bind base size).capacity = size := rfl
@[simp] theorem Fifo.bind_mask (base : Addr p) (size : Cursor p) : (s.bind base size).mask = size - 1 := rfl
@[simp] theorem Fifo.bind_wc (base : Addr p) (size : Cursor p) : (s.bind base size).wc = s.wc := rfl
@[simp] theorem Fifo.bind_rc (base : Addr p) (size : Cursor p) : (s.bind base size).rc = s.rc := rfl
@[simp] theorem Fifo.bind_rcSync (base : Addr p) (size : Cursor p) : (s.bind base size).rcSync = s.rcSync := rfl
@[simp] theorem Fifo.bind_wcSync (base : Addr p) (size : Cursor p) : (s.bind base size).wcSync = s.wcSync := rfl
@[simp] theorem Fifo.bind_lwOpen (base : Addr p) (size : Cursor p) : (s.bind base size).lwOpen = s.lwOpen := rfl
@[simp] theorem Fifo.bind_lrOpen (base : Addr p) (size : Cursor p) : (s.bind base size).lrOpen = s.lrOpen := rfl
@[simp] theorem Fifo.bind_faults (base : Addr p) (size : Cursor p) : (s.bind base size).faults = s.faults := rfl
@[simp] theorem Fifo.bind_mem (base : Addr p) (size : Cursor p) : (s.bind base size).mem = s.mem := rfl
@[simp] theorem Fifo.bind_inputs (base : Addr p) (size : Cursor p) : (s.bind base size).inputs = s.inputs := rfl
@[simp] theorem Fifo.bind_respP (base : Addr p) (size : Cursor p) : (s.bind base size).respP = s.respP := rfl
@[simp] theorem Fifo.bind_respC (base : Addr p) (size : Cursor p) : (s.bind base size).respC = s.respC := rfl
@[simp] theorem Fifo.bind_respK (base : Addr p) (size : Cursor p) : (s.bind base size).respK = s.respK := rfl
@[simp] theorem Fifo.bind_extReads (base : Addr p) (size : Cursor p) : (s.bind base size).extReads = s.extReads := rfl

/-! ### setConfigured -/

@[simp] theorem Fifo.setConfigured_configured (b : Bool) : (s.setConfigured b).configured = b := rfl
@[simp] theorem Fifo.setConfigured_poolBase (b : Bool) : (s.setConfigured b).poolBase = s.poolBase := rfl
@[simp] theorem Fifo.setConfigured_capacity (b : Bool) : (s.setConfigured b).capacity = s.capacity := rfl
@[simp] theorem Fifo.setConfigured_mask (b : Bool) : (s.setConfigured b).mask = s.mask := rfl
@[simp] theorem Fifo.setConfigured_wc (b : Bool) : (s.setConfigured b).wc = s.wc := rfl
@[simp] theorem Fifo.setConfigured_rc (b : Bool) : (s.setConfigured b).rc = s.rc := rfl
@[simp] theorem Fifo.setConfigured_rcSync (b : Bool) : (s.setConfigured b).rcSync = s.rcSync := rfl
@[simp] theorem Fifo.setConfigured_wcSync (b : Bool) : (s.setConfigured b).wcSync = s.wcSync := rfl
@[simp] theorem Fifo.setConfigured_lwOpen (b : Bool) : (s.setConfigured b).lwOpen = s.lwOpen := rfl
@[simp] theorem Fifo.setConfigured_lrOpen (b : Bool) : (s.setConfigured b).lrOpen = s.lrOpen := rfl
@[simp] theorem Fifo.setConfigured_faults (b : Bool) : (s.setConfigured b).faults = s.faults := rfl
@[simp] theorem Fifo.setConfigured_mem (b : Bool) : (s.setConfigured b).mem = s.mem := rfl
@[simp] theorem Fifo.setConfigured_inputs (b : Bool) : (s.setConfigured b).inputs = s.inputs := rfl
@[simp] theorem Fifo.setConfigured_respP (b : Bool) : (s.setConfigured b).respP = s.respP := rfl
@[simp] theorem Fifo.setConfigured_respC (b : Bool) : (s.setConfigured b).respC = s.respC := rfl
@[simp] theorem Fifo.setConfigured_respK (b : Bool) : (s.setConfigured b).respK = s.respK := rfl
@[simp] theorem Fifo.setConfigured_extReads (b : Bool) : (s.setConfigured b).extReads = s.extReads := rfl

/-! ### setLwOpen -/

@[simp] theorem Fifo.setLwOpen_configured (b : Bool) : (s.setLwOpen b).configured = s.configured := rfl
@[simp] theorem Fifo.setLwOpen_poolBase (b : Bool) : (s.setLwOpen b).poolBase = s.poolBase := rfl
@[simp] theorem Fifo.setLwOpen_capacity (b : Bool) : (s.setLwOpen b).capacity = s.capacity := rfl
@[simp] theorem Fifo.setLwOpen_mask (b : Bool) : (s.setLwOpen b).mask = s.mask := rfl
@[simp] theorem Fifo.setLwOpen_wc (b : Bool) : (s.setLwOpen b).wc = s.wc := rfl
@[simp] theorem Fifo.setLwOpen_rc (b : Bool) : (s.setLwOpen b).rc = s.rc := rfl
@[simp] theorem Fifo.setLwOpen_rcSync (b : Bool) : (s.setLwOpen b).rcSync = s.rcSync := rfl
@[simp] theorem Fifo.setLwOpen_wcSync (b : Bool) : (s.setLwOpen b).wcSync = s.wcSync := rfl
@[simp] theorem Fifo.setLwOpen_lwOpen (b : Bool) : (s.setLwOpen b).lwOpen = b := rfl
@[simp] theorem Fifo.setLwOpen_lrOpen (b : Bool) : (s.setLwOpen b).lrOpen = s.lrOpen := rfl
@[simp] theorem Fifo.setLwOpen_faults (b : Bool) : (s.setLwOpen b).faults = s.faults := rfl
@[simp] theorem Fifo.setLwOpen_mem (b : Bool) : (s.setLwOpen b).mem = s.mem := rfl
@[simp] theorem Fifo.setLwOpen_inputs (b : Bool) : (s.setLwOpen b).inputs = s.inputs := rfl
@[simp] theorem Fifo.setLwOpen_respP (b : Bool) : (s.setLwOpen b).respP = s.respP := rfl
@[simp] theorem Fifo.setLwOpen_respC (b : Bool) : (s.setLwOpen b).respC = s.respC := rfl
@[simp] theorem Fifo.setLwOpen_respK (b : Bool) : (s.setLwOpen b).respK = s.respK := rfl
@[simp] theorem Fifo.setLwOpen_extReads (b : Bool) : (s.setLwOpen b).extReads = s.extReads := rfl

/-! ### setLrOpen -/

@[simp] theorem Fifo.setLrOpen_configured (b : Bool) : (s.setLrOpen b).configured = s.configured := rfl
@[simp] theorem Fifo.setLrOpen_poolBase (b : Bool) : (s.setLrOpen b).poolBase = s.poolBase := rfl
@[simp] theorem Fifo.setLrOpen_capacity (b : Bool) : (s.setLrOpen b).capacity = s.capacity := rfl
@[simp] theorem Fifo.setLrOpen_mask (b : Bool) : (s.setLrOpen b).mask = s.mask := rfl
@[simp] theorem Fifo.setLrOpen_wc (b : Bool) : (s.setLrOpen b).wc = s.wc := rfl
@[simp] theorem Fifo.setLrOpen_rc (b : Bool) : (s.setLrOpen b).rc = s.rc := rfl
@[simp] theorem Fifo.setLrOpen_rcSync (b : Bool) : (s.setLrOpen b).rcSync = s.rcSync := rfl
@[simp] theorem Fifo.setLrOpen_wcSync (b : Bool) : (s.setLrOpen b).wcSync = s.wcSync := rfl
@[simp] theorem Fifo.setLrOpen_lwOpen (b : Bool) : (s.setLrOpen b).lwOpen = s.lwOpen := rfl
@[simp] theorem Fifo.setLrOpen_lrOpen (b : Bool) : (s.setLrOpen b).lrOpen = b := rfl
@[simp] theorem Fifo.setLrOpen_faults (b : Bool) : (s.setLrOpen b).faults = s.faults := rfl
@[simp] theorem Fifo.setLrOpen_mem (b : Bool) : (s.setLrOpen b).mem = s.mem := rfl
@[simp] theorem Fifo.setLrOpen_inputs (b : Bool) : (s.setLrOpen b).inputs = s.inputs := rfl
@[simp] theorem Fifo.setLrOpen_respP (b : Bool) : (s.setLrOpen b).respP = s.respP := rfl
@[simp] theorem Fifo.setLrOpen_respC (b : Bool) : (s.setLrOpen b).respC = s.respC := rfl
@[simp] theorem Fifo.setLrOpen_respK (b : Bool) : (s.setLrOpen b).respK = s.respK := rfl
@[simp] theorem Fifo.setLrOpen_extReads (b : Bool) : (s.setLrOpen b).extReads = s.extReads := rfl

/-! ### closeWindows -/

@[simp] theorem Fifo.closeWindows_configured : s.closeWindows.configured = s.configured := rfl
@[simp] theorem Fifo.closeWindows_poolBase : s.closeWindows.poolBase = s.poolBase := rfl
@[simp] theorem Fifo.closeWindows_capacity : s.closeWindows.capacity = s.capacity := rfl
@[simp] theorem Fifo.closeWindows_mask : s.closeWindows.mask = s.mask := rfl
@[simp] theorem Fifo.closeWindows_wc : s.closeWindows.wc = s.wc := rfl
@[simp] theorem Fifo.closeWindows_rc : s.closeWindows.rc = s.rc := rfl
@[simp] theorem Fifo.closeWindows_rcSync : s.closeWindows.rcSync = s.rcSync := rfl
@[simp] theorem Fifo.closeWindows_wcSync : s.closeWindows.wcSync = s.wcSync := rfl
@[simp] theorem Fifo.closeWindows_lwOpen : s.closeWindows.lwOpen = false := rfl
@[simp] theorem Fifo.closeWindows_lrOpen : s.closeWindows.lrOpen = false := rfl
@[simp] theorem Fifo.closeWindows_faults : s.closeWindows.faults = s.faults := rfl
@[simp] theorem Fifo.closeWindows_mem : s.closeWindows.mem = s.mem := rfl
@[simp] theorem Fifo.closeWindows_inputs : s.closeWindows.inputs = s.inputs := rfl
@[simp] theorem Fifo.closeWindows_respP : s.closeWindows.respP = s.respP := rfl
@[simp] theorem Fifo.closeWindows_respC : s.closeWindows.respC = s.respC := rfl
@[simp] theorem Fifo.closeWindows_respK : s.closeWindows.respK = s.respK := rfl
@[simp] theorem Fifo.closeWindows_extReads : s.closeWindows.extReads = s.extReads := rfl

/-! ### schedule -/

@[simp] theorem Fifo.schedule_configured (moves : List (AgentStep p)) : (s.schedule moves).configured = s.configured := rfl
@[simp] theorem Fifo.schedule_poolBase (moves : List (AgentStep p)) : (s.schedule moves).poolBase = s.poolBase := rfl
@[simp] theorem Fifo.schedule_capacity (moves : List (AgentStep p)) : (s.schedule moves).capacity = s.capacity := rfl
@[simp] theorem Fifo.schedule_mask (moves : List (AgentStep p)) : (s.schedule moves).mask = s.mask := rfl
@[simp] theorem Fifo.schedule_wc (moves : List (AgentStep p)) : (s.schedule moves).wc = s.wc := rfl
@[simp] theorem Fifo.schedule_rc (moves : List (AgentStep p)) : (s.schedule moves).rc = s.rc := rfl
@[simp] theorem Fifo.schedule_rcSync (moves : List (AgentStep p)) : (s.schedule moves).rcSync = s.rcSync := rfl
@[simp] theorem Fifo.schedule_wcSync (moves : List (AgentStep p)) : (s.schedule moves).wcSync = s.wcSync := rfl
@[simp] theorem Fifo.schedule_lwOpen (moves : List (AgentStep p)) : (s.schedule moves).lwOpen = s.lwOpen := rfl
@[simp] theorem Fifo.schedule_lrOpen (moves : List (AgentStep p)) : (s.schedule moves).lrOpen = s.lrOpen := rfl
@[simp] theorem Fifo.schedule_faults (moves : List (AgentStep p)) : (s.schedule moves).faults = s.faults := rfl
@[simp] theorem Fifo.schedule_mem (moves : List (AgentStep p)) : (s.schedule moves).mem = s.mem := rfl
@[simp] theorem Fifo.schedule_inputs (moves : List (AgentStep p)) : (s.schedule moves).inputs = moves ++ s.inputs := rfl
@[simp] theorem Fifo.schedule_respP (moves : List (AgentStep p)) : (s.schedule moves).respP = s.respP := rfl
@[simp] theorem Fifo.schedule_respC (moves : List (AgentStep p)) : (s.schedule moves).respC = s.respC := rfl
@[simp] theorem Fifo.schedule_respK (moves : List (AgentStep p)) : (s.schedule moves).respK = s.respK := rfl
@[simp] theorem Fifo.schedule_extReads (moves : List (AgentStep p)) : (s.schedule moves).extReads = s.extReads := rfl

/-! ### raise -/

@[simp] theorem Fifo.raise_configured (k : ModelFault) : (s.raise k).configured = s.configured := rfl
@[simp] theorem Fifo.raise_poolBase (k : ModelFault) : (s.raise k).poolBase = s.poolBase := rfl
@[simp] theorem Fifo.raise_capacity (k : ModelFault) : (s.raise k).capacity = s.capacity := rfl
@[simp] theorem Fifo.raise_mask (k : ModelFault) : (s.raise k).mask = s.mask := rfl
@[simp] theorem Fifo.raise_wc (k : ModelFault) : (s.raise k).wc = s.wc := rfl
@[simp] theorem Fifo.raise_rc (k : ModelFault) : (s.raise k).rc = s.rc := rfl
@[simp] theorem Fifo.raise_rcSync (k : ModelFault) : (s.raise k).rcSync = s.rcSync := rfl
@[simp] theorem Fifo.raise_wcSync (k : ModelFault) : (s.raise k).wcSync = s.wcSync := rfl
@[simp] theorem Fifo.raise_lwOpen (k : ModelFault) : (s.raise k).lwOpen = s.lwOpen := rfl
@[simp] theorem Fifo.raise_lrOpen (k : ModelFault) : (s.raise k).lrOpen = s.lrOpen := rfl
@[simp] theorem Fifo.raise_faults (k : ModelFault) : (s.raise k).faults = FaultSet.add k s.faults := rfl
@[simp] theorem Fifo.raise_mem (k : ModelFault) : (s.raise k).mem = s.mem := rfl
@[simp] theorem Fifo.raise_inputs (k : ModelFault) : (s.raise k).inputs = s.inputs := rfl
@[simp] theorem Fifo.raise_respP (k : ModelFault) : (s.raise k).respP = s.respP := rfl
@[simp] theorem Fifo.raise_respC (k : ModelFault) : (s.raise k).respC = s.respC := rfl
@[simp] theorem Fifo.raise_respK (k : ModelFault) : (s.raise k).respK = s.respK := rfl
@[simp] theorem Fifo.raise_extReads (k : ModelFault) : (s.raise k).extReads = s.extReads := rfl

/-! ### raiseIf -/

@[simp] theorem Fifo.raiseIf_configured (b : Bool) (k : ModelFault) : (s.raiseIf b k).configured = s.configured := by
  cases b <;> rfl
@[simp] theorem Fifo.raiseIf_poolBase (b : Bool) (k : ModelFault) : (s.raiseIf b k).poolBase = s.poolBase := by
  cases b <;> rfl
@[simp] theorem Fifo.raiseIf_capacity (b : Bool) (k : ModelFault) : (s.raiseIf b k).capacity = s.capacity := by
  cases b <;> rfl
@[simp] theorem Fifo.raiseIf_mask (b : Bool) (k : ModelFault) : (s.raiseIf b k).mask = s.mask := by
  cases b <;> rfl
@[simp] theorem Fifo.raiseIf_wc (b : Bool) (k : ModelFault) : (s.raiseIf b k).wc = s.wc := by
  cases b <;> rfl
@[simp] theorem Fifo.raiseIf_rc (b : Bool) (k : ModelFault) : (s.raiseIf b k).rc = s.rc := by
  cases b <;> rfl
@[simp] theorem Fifo.raiseIf_rcSync (b : Bool) (k : ModelFault) : (s.raiseIf b k).rcSync = s.rcSync := by
  cases b <;> rfl
@[simp] theorem Fifo.raiseIf_wcSync (b : Bool) (k : ModelFault) : (s.raiseIf b k).wcSync = s.wcSync := by
  cases b <;> rfl
@[simp] theorem Fifo.raiseIf_lwOpen (b : Bool) (k : ModelFault) : (s.raiseIf b k).lwOpen = s.lwOpen := by
  cases b <;> rfl
@[simp] theorem Fifo.raiseIf_lrOpen (b : Bool) (k : ModelFault) : (s.raiseIf b k).lrOpen = s.lrOpen := by
  cases b <;> rfl
@[simp] theorem Fifo.raiseIf_faults (b : Bool) (k : ModelFault) :
    (s.raiseIf b k).faults = if b then FaultSet.add k s.faults else s.faults := by
  cases b <;> rfl
@[simp] theorem Fifo.raiseIf_mem (b : Bool) (k : ModelFault) : (s.raiseIf b k).mem = s.mem := by
  cases b <;> rfl
@[simp] theorem Fifo.raiseIf_inputs (b : Bool) (k : ModelFault) : (s.raiseIf b k).inputs = s.inputs := by
  cases b <;> rfl
@[simp] theorem Fifo.raiseIf_respP (b : Bool) (k : ModelFault) : (s.raiseIf b k).respP = s.respP := by
  cases b <;> rfl
@[simp] theorem Fifo.raiseIf_respC (b : Bool) (k : ModelFault) : (s.raiseIf b k).respC = s.respC := by
  cases b <;> rfl
@[simp] theorem Fifo.raiseIf_respK (b : Bool) (k : ModelFault) : (s.raiseIf b k).respK = s.respK := by
  cases b <;> rfl
@[simp] theorem Fifo.raiseIf_extReads (b : Bool) (k : ModelFault) : (s.raiseIf b k).extReads = s.extReads := by
  cases b <;> rfl

/-- The kinds after a conditional record. -/
theorem Fifo.mem_raiseIf_faults (b : Bool) (kind k : ModelFault) :
    k ∈ (s.raiseIf b kind).faults ↔ (b = true ∧ k = kind) ∨ k ∈ s.faults := by
  cases b <;> simp

/-! ### abandonWindows, checkLwFinish and checkLrFinish: the checks that record broken duties -/

@[simp] theorem Fifo.abandonWindows_configured (k : ModelFault) : (s.abandonWindows k).configured = s.configured := by
  simp [Fifo.abandonWindows]
@[simp] theorem Fifo.abandonWindows_poolBase (k : ModelFault) : (s.abandonWindows k).poolBase = s.poolBase := by
  simp [Fifo.abandonWindows]
@[simp] theorem Fifo.abandonWindows_capacity (k : ModelFault) : (s.abandonWindows k).capacity = s.capacity := by
  simp [Fifo.abandonWindows]
@[simp] theorem Fifo.abandonWindows_mask (k : ModelFault) : (s.abandonWindows k).mask = s.mask := by
  simp [Fifo.abandonWindows]
@[simp] theorem Fifo.abandonWindows_wc (k : ModelFault) : (s.abandonWindows k).wc = s.wc := by
  simp [Fifo.abandonWindows]
@[simp] theorem Fifo.abandonWindows_rc (k : ModelFault) : (s.abandonWindows k).rc = s.rc := by
  simp [Fifo.abandonWindows]
@[simp] theorem Fifo.abandonWindows_rcSync (k : ModelFault) : (s.abandonWindows k).rcSync = s.rcSync := by
  simp [Fifo.abandonWindows]
@[simp] theorem Fifo.abandonWindows_wcSync (k : ModelFault) : (s.abandonWindows k).wcSync = s.wcSync := by
  simp [Fifo.abandonWindows]
@[simp] theorem Fifo.abandonWindows_lwOpen (k : ModelFault) : (s.abandonWindows k).lwOpen = false := rfl
@[simp] theorem Fifo.abandonWindows_lrOpen (k : ModelFault) : (s.abandonWindows k).lrOpen = false := rfl
@[simp] theorem Fifo.abandonWindows_faults (k : ModelFault) : (s.abandonWindows k).faults = (s.raiseIf s.windowOpen k).faults := rfl
@[simp] theorem Fifo.abandonWindows_mem (k : ModelFault) : (s.abandonWindows k).mem = s.mem := by
  simp [Fifo.abandonWindows]
@[simp] theorem Fifo.abandonWindows_inputs (k : ModelFault) : (s.abandonWindows k).inputs = s.inputs := by
  simp [Fifo.abandonWindows]
@[simp] theorem Fifo.abandonWindows_respP (k : ModelFault) : (s.abandonWindows k).respP = s.respP := by
  simp [Fifo.abandonWindows]
@[simp] theorem Fifo.abandonWindows_respC (k : ModelFault) : (s.abandonWindows k).respC = s.respC := by
  simp [Fifo.abandonWindows]
@[simp] theorem Fifo.abandonWindows_respK (k : ModelFault) : (s.abandonWindows k).respK = s.respK := by
  simp [Fifo.abandonWindows]
@[simp] theorem Fifo.abandonWindows_extReads (k : ModelFault) : (s.abandonWindows k).extReads = s.extReads := by
  simp [Fifo.abandonWindows]

@[simp] theorem Fifo.checkLwFinish_configured (n : Cursor p) : (s.checkLwFinish n).configured = s.configured := by
  simp [Fifo.checkLwFinish]
@[simp] theorem Fifo.checkLwFinish_poolBase (n : Cursor p) : (s.checkLwFinish n).poolBase = s.poolBase := by
  simp [Fifo.checkLwFinish]
@[simp] theorem Fifo.checkLwFinish_capacity (n : Cursor p) : (s.checkLwFinish n).capacity = s.capacity := by
  simp [Fifo.checkLwFinish]
@[simp] theorem Fifo.checkLwFinish_mask (n : Cursor p) : (s.checkLwFinish n).mask = s.mask := by
  simp [Fifo.checkLwFinish]
@[simp] theorem Fifo.checkLwFinish_wc (n : Cursor p) : (s.checkLwFinish n).wc = s.wc := by
  simp [Fifo.checkLwFinish]
@[simp] theorem Fifo.checkLwFinish_rc (n : Cursor p) : (s.checkLwFinish n).rc = s.rc := by
  simp [Fifo.checkLwFinish]
@[simp] theorem Fifo.checkLwFinish_rcSync (n : Cursor p) : (s.checkLwFinish n).rcSync = s.rcSync := by
  simp [Fifo.checkLwFinish]
@[simp] theorem Fifo.checkLwFinish_wcSync (n : Cursor p) : (s.checkLwFinish n).wcSync = s.wcSync := by
  simp [Fifo.checkLwFinish]
@[simp] theorem Fifo.checkLwFinish_lwOpen (n : Cursor p) : (s.checkLwFinish n).lwOpen = s.lwOpen := by
  simp [Fifo.checkLwFinish]
@[simp] theorem Fifo.checkLwFinish_lrOpen (n : Cursor p) : (s.checkLwFinish n).lrOpen = s.lrOpen := by
  simp [Fifo.checkLwFinish]
@[simp] theorem Fifo.checkLwFinish_mem (n : Cursor p) : (s.checkLwFinish n).mem = s.mem := by
  simp [Fifo.checkLwFinish]
@[simp] theorem Fifo.checkLwFinish_inputs (n : Cursor p) : (s.checkLwFinish n).inputs = s.inputs := by
  simp [Fifo.checkLwFinish]
@[simp] theorem Fifo.checkLwFinish_respP (n : Cursor p) : (s.checkLwFinish n).respP = s.respP := by
  simp [Fifo.checkLwFinish]
@[simp] theorem Fifo.checkLwFinish_respC (n : Cursor p) : (s.checkLwFinish n).respC = s.respC := by
  simp [Fifo.checkLwFinish]
@[simp] theorem Fifo.checkLwFinish_respK (n : Cursor p) : (s.checkLwFinish n).respK = s.respK := by
  simp [Fifo.checkLwFinish]
@[simp] theorem Fifo.checkLwFinish_extReads (n : Cursor p) : (s.checkLwFinish n).extReads = s.extReads := by
  simp [Fifo.checkLwFinish]

@[simp] theorem Fifo.checkLrFinish_configured (n : Cursor p) : (s.checkLrFinish n).configured = s.configured := by
  simp [Fifo.checkLrFinish]
@[simp] theorem Fifo.checkLrFinish_poolBase (n : Cursor p) : (s.checkLrFinish n).poolBase = s.poolBase := by
  simp [Fifo.checkLrFinish]
@[simp] theorem Fifo.checkLrFinish_capacity (n : Cursor p) : (s.checkLrFinish n).capacity = s.capacity := by
  simp [Fifo.checkLrFinish]
@[simp] theorem Fifo.checkLrFinish_mask (n : Cursor p) : (s.checkLrFinish n).mask = s.mask := by
  simp [Fifo.checkLrFinish]
@[simp] theorem Fifo.checkLrFinish_wc (n : Cursor p) : (s.checkLrFinish n).wc = s.wc := by
  simp [Fifo.checkLrFinish]
@[simp] theorem Fifo.checkLrFinish_rc (n : Cursor p) : (s.checkLrFinish n).rc = s.rc := by
  simp [Fifo.checkLrFinish]
@[simp] theorem Fifo.checkLrFinish_rcSync (n : Cursor p) : (s.checkLrFinish n).rcSync = s.rcSync := by
  simp [Fifo.checkLrFinish]
@[simp] theorem Fifo.checkLrFinish_wcSync (n : Cursor p) : (s.checkLrFinish n).wcSync = s.wcSync := by
  simp [Fifo.checkLrFinish]
@[simp] theorem Fifo.checkLrFinish_lwOpen (n : Cursor p) : (s.checkLrFinish n).lwOpen = s.lwOpen := by
  simp [Fifo.checkLrFinish]
@[simp] theorem Fifo.checkLrFinish_lrOpen (n : Cursor p) : (s.checkLrFinish n).lrOpen = s.lrOpen := by
  simp [Fifo.checkLrFinish]
@[simp] theorem Fifo.checkLrFinish_mem (n : Cursor p) : (s.checkLrFinish n).mem = s.mem := by
  simp [Fifo.checkLrFinish]
@[simp] theorem Fifo.checkLrFinish_inputs (n : Cursor p) : (s.checkLrFinish n).inputs = s.inputs := by
  simp [Fifo.checkLrFinish]
@[simp] theorem Fifo.checkLrFinish_respP (n : Cursor p) : (s.checkLrFinish n).respP = s.respP := by
  simp [Fifo.checkLrFinish]
@[simp] theorem Fifo.checkLrFinish_respC (n : Cursor p) : (s.checkLrFinish n).respC = s.respC := by
  simp [Fifo.checkLrFinish]
@[simp] theorem Fifo.checkLrFinish_respK (n : Cursor p) : (s.checkLrFinish n).respK = s.respK := by
  simp [Fifo.checkLrFinish]
@[simp] theorem Fifo.checkLrFinish_extReads (n : Cursor p) : (s.checkLrFinish n).extReads = s.extReads := by
  simp [Fifo.checkLrFinish]

/-- LW_FINISH records exactly the duties `n` breaks (R108, R111). -/
theorem Fifo.mem_checkLwFinish_faults (n : Cursor p) (k : ModelFault) :
    k ∈ (s.checkLwFinish n).faults ↔ k ∈ s.faults ∨
      (k = .lwFinishBeyondRegion ∧ s.remainIn < n) ∨ (k = .lwFinishBeyondFree ∧ s.freeP < n) := by
  simp only [Fifo.checkLwFinish, Fifo.mem_raiseIf_faults, decide_eq_true_eq]
  tauto

/-- LR_FINISH records exactly the duties `n` breaks (R108, R114). -/
theorem Fifo.mem_checkLrFinish_faults (n : Cursor p) (k : ModelFault) :
    k ∈ (s.checkLrFinish n).faults ↔ k ∈ s.faults ∨
      (k = .lrFinishBeyondRegion ∧ s.remainOut < n) ∨ (k = .lrFinishBeyondUsed ∧ s.usedC < n) := by
  simp only [Fifo.checkLrFinish, Fifo.mem_raiseIf_faults, decide_eq_true_eq]
  tauto

/-- INIT and RESET record their kind exactly when a window is open (R96, R115). -/
theorem Fifo.mem_abandonWindows_faults (kind k : ModelFault) :
    k ∈ (s.abandonWindows kind).faults ↔ k ∈ s.faults ∨ (k = kind ∧ (s.lwOpen = true ∨ s.lrOpen = true)) := by
  rw [Fifo.abandonWindows_faults, Fifo.mem_raiseIf_faults]
  simp only [Fifo.windowOpen, Bool.or_eq_true]
  tauto

/-! ### respond -/

@[simp] theorem Fifo.respond_configured (port : Port) (r : Response p) : (s.respond port r).configured = s.configured := by
  cases port <;> rfl
@[simp] theorem Fifo.respond_poolBase (port : Port) (r : Response p) : (s.respond port r).poolBase = s.poolBase := by
  cases port <;> rfl
@[simp] theorem Fifo.respond_capacity (port : Port) (r : Response p) : (s.respond port r).capacity = s.capacity := by
  cases port <;> rfl
@[simp] theorem Fifo.respond_mask (port : Port) (r : Response p) : (s.respond port r).mask = s.mask := by
  cases port <;> rfl
@[simp] theorem Fifo.respond_wc (port : Port) (r : Response p) : (s.respond port r).wc = s.wc := by
  cases port <;> rfl
@[simp] theorem Fifo.respond_rc (port : Port) (r : Response p) : (s.respond port r).rc = s.rc := by
  cases port <;> rfl
@[simp] theorem Fifo.respond_rcSync (port : Port) (r : Response p) : (s.respond port r).rcSync = s.rcSync := by
  cases port <;> rfl
@[simp] theorem Fifo.respond_wcSync (port : Port) (r : Response p) : (s.respond port r).wcSync = s.wcSync := by
  cases port <;> rfl
@[simp] theorem Fifo.respond_lwOpen (port : Port) (r : Response p) : (s.respond port r).lwOpen = s.lwOpen := by
  cases port <;> rfl
@[simp] theorem Fifo.respond_lrOpen (port : Port) (r : Response p) : (s.respond port r).lrOpen = s.lrOpen := by
  cases port <;> rfl
@[simp] theorem Fifo.respond_faults (port : Port) (r : Response p) : (s.respond port r).faults = s.faults := by
  cases port <;> rfl
@[simp] theorem Fifo.respond_mem (port : Port) (r : Response p) : (s.respond port r).mem = s.mem := by
  cases port <;> rfl
@[simp] theorem Fifo.respond_inputs (port : Port) (r : Response p) : (s.respond port r).inputs = s.inputs := by
  cases port <;> rfl
@[simp] theorem Fifo.respond_respP (port : Port) (r : Response p) :
    (s.respond port r).respP = if port = .p then s.respP ++ [r] else s.respP := by
  cases port <;> rfl
@[simp] theorem Fifo.respond_respC (port : Port) (r : Response p) :
    (s.respond port r).respC = if port = .c then s.respC ++ [r] else s.respC := by
  cases port <;> rfl
@[simp] theorem Fifo.respond_respK (port : Port) (r : Response p) :
    (s.respond port r).respK = if port = .k then s.respK ++ [r] else s.respK := by
  cases port <;> rfl
@[simp] theorem Fifo.respond_extReads (port : Port) (r : Response p) : (s.respond port r).extReads = s.extReads := by
  cases port <;> rfl

/-- The responses of every port after a response to one of them (R123). -/
@[simp] theorem Fifo.respond_responses (port q : Port) (r : Response p) :
    (s.respond port r).responses q = if port = q then s.responses q ++ [r] else s.responses q := by
  cases port <;> cases q <;> rfl

/-! ### copyIn: only memory changes -/

theorem Fifo.copyIn_eq (c : Cursor p) (bytes : List Byte) :
    s.copyIn c bytes = { s with mem := (s.copyIn c bytes).mem } := by
  induction bytes generalizing s c with
  | nil => rfl
  | cons byte bytes ih => exact ih (s.memWrite (s.saddr c) byte) (c + 1)

@[simp] theorem Fifo.copyIn_configured (c : Cursor p) (bytes : List Byte) : (s.copyIn c bytes).configured = s.configured := by
  rw [Fifo.copyIn_eq]
@[simp] theorem Fifo.copyIn_poolBase (c : Cursor p) (bytes : List Byte) : (s.copyIn c bytes).poolBase = s.poolBase := by
  rw [Fifo.copyIn_eq]
@[simp] theorem Fifo.copyIn_capacity (c : Cursor p) (bytes : List Byte) : (s.copyIn c bytes).capacity = s.capacity := by
  rw [Fifo.copyIn_eq]
@[simp] theorem Fifo.copyIn_mask (c : Cursor p) (bytes : List Byte) : (s.copyIn c bytes).mask = s.mask := by
  rw [Fifo.copyIn_eq]
@[simp] theorem Fifo.copyIn_wc (c : Cursor p) (bytes : List Byte) : (s.copyIn c bytes).wc = s.wc := by
  rw [Fifo.copyIn_eq]
@[simp] theorem Fifo.copyIn_rc (c : Cursor p) (bytes : List Byte) : (s.copyIn c bytes).rc = s.rc := by
  rw [Fifo.copyIn_eq]
@[simp] theorem Fifo.copyIn_rcSync (c : Cursor p) (bytes : List Byte) : (s.copyIn c bytes).rcSync = s.rcSync := by
  rw [Fifo.copyIn_eq]
@[simp] theorem Fifo.copyIn_wcSync (c : Cursor p) (bytes : List Byte) : (s.copyIn c bytes).wcSync = s.wcSync := by
  rw [Fifo.copyIn_eq]
@[simp] theorem Fifo.copyIn_lwOpen (c : Cursor p) (bytes : List Byte) : (s.copyIn c bytes).lwOpen = s.lwOpen := by
  rw [Fifo.copyIn_eq]
@[simp] theorem Fifo.copyIn_lrOpen (c : Cursor p) (bytes : List Byte) : (s.copyIn c bytes).lrOpen = s.lrOpen := by
  rw [Fifo.copyIn_eq]
@[simp] theorem Fifo.copyIn_faults (c : Cursor p) (bytes : List Byte) : (s.copyIn c bytes).faults = s.faults := by
  rw [Fifo.copyIn_eq]
@[simp] theorem Fifo.copyIn_inputs (c : Cursor p) (bytes : List Byte) : (s.copyIn c bytes).inputs = s.inputs := by
  rw [Fifo.copyIn_eq]
@[simp] theorem Fifo.copyIn_respP (c : Cursor p) (bytes : List Byte) : (s.copyIn c bytes).respP = s.respP := by
  rw [Fifo.copyIn_eq]
@[simp] theorem Fifo.copyIn_respC (c : Cursor p) (bytes : List Byte) : (s.copyIn c bytes).respC = s.respC := by
  rw [Fifo.copyIn_eq]
@[simp] theorem Fifo.copyIn_respK (c : Cursor p) (bytes : List Byte) : (s.copyIn c bytes).respK = s.respK := by
  rw [Fifo.copyIn_eq]
@[simp] theorem Fifo.copyIn_extReads (c : Cursor p) (bytes : List Byte) : (s.copyIn c bytes).extReads = s.extReads := by
  rw [Fifo.copyIn_eq]

/-! ### Powering on -/

@[simp] theorem Fifo.powerOn_configured : s.powerOn.configured = false := rfl
@[simp] theorem Fifo.powerOn_poolBase : s.powerOn.poolBase = 0 := rfl
@[simp] theorem Fifo.powerOn_capacity : s.powerOn.capacity = 0 := rfl
@[simp] theorem Fifo.powerOn_mask : s.powerOn.mask = 0 := rfl
@[simp] theorem Fifo.powerOn_wc : s.powerOn.wc = 0 := rfl
@[simp] theorem Fifo.powerOn_rc : s.powerOn.rc = 0 := rfl
@[simp] theorem Fifo.powerOn_rcSync : s.powerOn.rcSync = 0 := rfl
@[simp] theorem Fifo.powerOn_wcSync : s.powerOn.wcSync = 0 := rfl
@[simp] theorem Fifo.powerOn_lwOpen : s.powerOn.lwOpen = false := rfl
@[simp] theorem Fifo.powerOn_lrOpen : s.powerOn.lrOpen = false := rfl
@[simp] theorem Fifo.powerOn_faults : s.powerOn.faults = s.faults := rfl
@[simp] theorem Fifo.powerOn_mem : s.powerOn.mem = s.mem := rfl
@[simp] theorem Fifo.powerOn_inputs : s.powerOn.inputs = s.inputs := rfl
@[simp] theorem Fifo.powerOn_respP : s.powerOn.respP = s.respP := rfl
@[simp] theorem Fifo.powerOn_respC : s.powerOn.respC = s.respC := rfl
@[simp] theorem Fifo.powerOn_respK : s.powerOn.respK = s.respK := rfl
@[simp] theorem Fifo.powerOn_extReads : s.powerOn.extReads = s.extReads := rfl

/-! ### The crossings -/

/-- X_R2P writes RC_SYNC and nothing else (R118). -/
theorem Fifo.crossR2P_eq : s.crossR2P = { s with rcSync := s.rc } := rfl

/-- X_W2C writes WC_SYNC and nothing else (R119). -/
theorem Fifo.crossW2C_eq : s.crossW2C = { s with wcSync := s.wc } := rfl

end Sys2Proof.Machine
end

