-- ==== Sys2Proof/Laws/Memory.lean ====
section
/-! SUPPORT. Memory: a read after a write, what a write leaves alone, and that every memory operation keeps the canonical form. -/

namespace Sys2Proof.Machine

variable {p : Params}

/-! ## The list of written bytes -/

@[simp] theorem Memory.find?_nil (a : Nat) : Memory.find? [] a = none := rfl

theorem Memory.find?_cons (k a : Nat) (v : Byte) (cells : List Host.Cell) :
    Memory.find? ((k, v) :: cells) a = if a = k then some v else Memory.find? cells a := rfl

/-- A byte just written is found. -/
theorem Memory.find?_insert_self (cells : List Host.Cell) (a : Nat) (v : Byte) :
    Memory.find? (Memory.insert cells a v) a = some v := by
  induction cells with
  | nil => simp [Memory.insert, Memory.find?]
  | cons cell cells ih =>
    obtain ⟨k, u⟩ := cell
    unfold Memory.insert
    split_ifs with below equal
    · simp [Memory.find?]
    · simp [Memory.find?]
    · simp [Memory.find?, equal, ih]

/-- A write leaves every other address alone. -/
theorem Memory.find?_insert_other (cells : List Host.Cell) {a b : Nat} (v : Byte) (other : b ≠ a) :
    Memory.find? (Memory.insert cells a v) b = Memory.find? cells b := by
  induction cells with
  | nil => simp [Memory.insert, Memory.find?, other]
  | cons cell cells ih =>
    obtain ⟨k, u⟩ := cell
    unfold Memory.insert
    split_ifs with below equal
    · simp [Memory.find?, other]
    · subst equal
      simp [Memory.find?, other]
    · simp [Memory.find?, ih]

/-- The entries after a write are the one written and entries that were there. -/
theorem Memory.mem_insert {cells : List Host.Cell} {a : Nat} {v : Byte} {x : Host.Cell}
    (inside : x ∈ Memory.insert cells a v) : x = (a, v) ∨ x ∈ cells := by
  induction cells with
  | nil => simpa [Memory.insert] using inside
  | cons cell cells ih =>
    obtain ⟨k, u⟩ := cell
    unfold Memory.insert at inside
    split_ifs at inside with below equal
    · simpa using inside
    · rcases List.mem_cons.mp inside with here | there
      · exact .inl here
      · exact .inr (List.mem_cons_of_mem _ there)
    · rcases List.mem_cons.mp inside with here | there
      · exact .inr (here ▸ List.mem_cons_self)
      · exact (ih there).imp_right (List.mem_cons_of_mem _)

/-- A write keeps the canonical form. -/
theorem Memory.insert_wf {cells : List Host.Cell} (canonical : Memory.wf p cells) {a : Nat} (v : Byte) (small : a < 2 ^ p.addrW) :
    Memory.wf p (Memory.insert cells a v) := by
  obtain ⟨rising, inside⟩ := canonical
  refine ⟨?_, fun x hx => ?_⟩
  · clear inside small
    induction cells with
    | nil => simp [Memory.insert]
    | cons cell cells ih =>
      obtain ⟨k, u⟩ := cell
      obtain ⟨above, tail⟩ := List.pairwise_cons.mp rising
      unfold Memory.insert
      split_ifs with below equal
      · refine List.pairwise_cons.mpr ⟨fun x hx => ?_, rising⟩
        rcases List.mem_cons.mp hx with rfl | there
        · exact below
        · exact lt_trans below (above x there)
      · subst equal
        exact List.pairwise_cons.mpr ⟨above, tail⟩
      · refine List.pairwise_cons.mpr ⟨fun x hx => ?_, ih tail⟩
        rcases Memory.mem_insert hx with rfl | there
        · show k < a
          omega
        · exact above x there
  · rcases Memory.mem_insert hx with rfl | there
    · exact small
    · exact inside x there

/-- The memory at reset is canonical. -/
theorem Memory.reset_wf (p : Params) : Memory.wf p (Fifo.reset p).mem :=
    ⟨List.Pairwise.nil, fun _ inside => by simp [Fifo.reset] at inside⟩

/-! ## Reads and writes of the machine (R47) -/

/-- Reading after a write: the byte written at its address, the old byte at every other (R47, R57). -/
@[simp] theorem Fifo.memRead_memWrite (s : Fifo p) (a b : Addr p) (v : Byte) :
    (s.memWrite a v).memRead b = if b = a then v else s.memRead b := by
  unfold Fifo.memRead Fifo.memWrite Memory.read
  split_ifs with equal
  · rw [equal, Memory.find?_insert_self, Option.getD_some]
  · rw [Memory.find?_insert_other]
    exact fun h => equal (BitVec.eq_of_toNat_eq h)

/-- A read depends on memory alone. -/
theorem Fifo.memRead_congr {s t : Fifo p} (same : s.mem = t.mem) (a : Addr p) : s.memRead a = t.memRead a := by
  unfold Fifo.memRead
  rw [same]

/-- MemWrite keeps the canonical form. -/
theorem Fifo.memWrite_wf {s : Fifo p} (canonical : Memory.wf p s.mem) (a : Addr p) (v : Byte) : Memory.wf p (s.memWrite a v).mem :=
  Memory.insert_wf canonical v a.isLt

/-! ## The bulk copy (R65) -/

@[simp] theorem Fifo.copyIn_nil (s : Fifo p) (c : Cursor p) : s.copyIn c [] = s := rfl

theorem Fifo.copyIn_cons (s : Fifo p) (c : Cursor p) (byte : Byte) (bytes : List Byte) :
    s.copyIn c (byte :: bytes) = (s.memWrite (s.saddr c) byte).copyIn (c + 1) bytes := rfl

/-- The bulk copy keeps the canonical form. -/
theorem Fifo.copyIn_wf {s : Fifo p} (canonical : Memory.wf p s.mem) (c : Cursor p) (bytes : List Byte) :
    Memory.wf p (s.copyIn c bytes).mem := by
  induction bytes generalizing s c with
  | nil => exact canonical
  | cons byte bytes ih => exact ih (s.memWrite_wf canonical (s.saddr c) byte) (c + 1)

/-- The cursor of byte `i + 1` counted from `c` is that of byte `i` counted from `c + 1`. -/
theorem cursor_succ (c : Cursor p) (i : Nat) : c + 1 + p.cursor i = c + p.cursor (i + 1) := by
  rw [BitVec.add_assoc, Nat.add_comm i, Params.cursor, Params.cursor, BitVec.ofNat_add]
  rfl

/-- The bulk copy leaves alone every address it does not store to. -/
theorem Fifo.copyIn_memRead_other (s : Fifo p) (c : Cursor p) (bytes : List Byte) (a : Addr p)
    (outside : ∀ i < bytes.length, a ≠ s.saddr (c + p.cursor i)) : (s.copyIn c bytes).memRead a = s.memRead a := by
  induction bytes generalizing s c with
  | nil => rfl
  | cons byte bytes ih =>
    rw [Fifo.copyIn_cons, ih, Fifo.memRead_memWrite, if_neg]
    · simpa using outside 0 (by simp)
    · intro i small
      rw [cursor_succ]
      exact outside (i + 1) (by simpa using small)

/-- Byte `i` of the bulk copy stands at the address of cursor `c + i`, when the copy's addresses are pairwise different. -/
theorem Fifo.copyIn_memRead_at (s : Fifo p) (c : Cursor p) (bytes : List Byte)
    (apart : ∀ i < bytes.length, ∀ j < bytes.length,
      s.saddr (c + p.cursor i) = s.saddr (c + p.cursor j) → i = j)
    (i : Nat) (small : i < bytes.length) : (s.copyIn c bytes).memRead (s.saddr (c + p.cursor i)) = bytes[i] := by
  induction bytes generalizing s c i with
  | nil => simp at small
  | cons byte bytes ih =>
    rw [Fifo.copyIn_cons]
    cases i with
    | zero =>
      rw [Fifo.copyIn_memRead_other, Fifo.memRead_memWrite]
      · simp
      · intro j below equal
        rw [cursor_succ] at equal
        have := apart 0 (by simp) (j + 1) (by simpa using below) equal
        omega
    | succ i =>
      have inside : i < bytes.length := by simpa using small
      rw [← cursor_succ]
      refine ih (s.memWrite (s.saddr c) byte) (c + 1) ?_ i inside
      intro j hj k hk equal
      rw [cursor_succ, cursor_succ] at equal
      have := apart (j + 1) (by simpa using hj) (k + 1) (by simpa using hk) equal
      omega

/-- The bytes a bulk read returns, one per cursor. -/
theorem Fifo.copyOut_eq_map (s : Fifo p) (c : Cursor p) (k : Nat) :
    s.copyOut c k = (List.range k).map (fun i => s.memRead (s.saddr (c + p.cursor i))) := by
  induction k generalizing c with
  | zero => rfl
  | succ k ih =>
    rw [Fifo.copyOut, ih, List.range_succ_eq_map, List.map_cons, List.map_map]
    congr 1
    · simp
    · exact List.map_congr_left fun i _ => by rw [cursor_succ]; rfl

@[simp] theorem Fifo.copyOut_length (s : Fifo p) (c : Cursor p) (k : Nat) : (s.copyOut c k).length = k := by
  rw [Fifo.copyOut_eq_map, List.length_map, List.length_range]

end Sys2Proof.Machine
end

