-- ==== Sys2Proof/Laws/Ops.lean ====
section
/-! SUPPORT. For each shared operation, one lemma that says everything it can do. -/

namespace Sys2Proof.Machine

variable {p : Params}

/-! ## Model faults (R38) -/

/-- Recording a kind keeps the canonical form. -/
theorem FaultSet.add_wf {kinds : List ModelFault} (canonical : FaultSet.wf kinds) (kind : ModelFault) :
    FaultSet.wf (FaultSet.add kind kinds) := by
  induction kinds with
  | nil => simp [FaultSet.add]
  | cons first kinds ih =>
    obtain ⟨above, rising⟩ := List.pairwise_cons.mp canonical
    unfold FaultSet.add
    split_ifs with equal below
    · exact canonical
    · refine List.pairwise_cons.mpr ⟨fun k hk => ?_, canonical⟩
      rcases List.mem_cons.mp hk with rfl | there
      · exact below
      · exact lt_trans below (above k there)
    · refine List.pairwise_cons.mpr ⟨fun k hk => ?_, ih rising⟩
      rcases (FaultSet.mem_add kind k kinds).mp hk with rfl | there
      · have differ : k.code ≠ first.code := fun h => equal (by cases k <;> cases first <;> simp_all [ModelFault.code])
        omega
      · exact above k there

/-- A set with a kind just recorded is not empty. -/
@[simp] theorem FaultSet.add_ne_nil (kind : ModelFault) (kinds : List ModelFault) : FaultSet.add kind kinds ≠ [] := by
  intro none
  have inside := (FaultSet.mem_add kind kind kinds).mpr (.inl rfl)
  rw [none] at inside
  exact List.not_mem_nil inside

/-- No kind is recorded exactly when none was and the condition fails. -/
theorem Fifo.raiseIf_faults_eq_nil (s : Fifo p) (b : Bool) (kind : ModelFault) :
    (s.raiseIf b kind).faults = [] ↔ b = false ∧ s.faults = [] := by
  cases b <;> simp [Fifo.raiseIf]

/-- A conditional record keeps the canonical form. -/
theorem Fifo.raiseIf_faults_wf {s : Fifo p} (canonical : FaultSet.wf s.faults) (b : Bool) (kind : ModelFault) :
    FaultSet.wf (s.raiseIf b kind).faults := by
  cases b
  · exact canonical
  · exact FaultSet.add_wf canonical kind

/-! ## The gate (R25, R88) -/

/-- The gate answers NOT_CONFIGURED and changes nothing else, or runs the command. -/
theorem Fifo.whenConfigured_cases {s done : Fifo p} {port : Port} :
    (s.configured = true ∧ s.whenConfigured port done = done) ∨
      (s.configured = false ∧ s.whenConfigured port done = s.respond port { status := .notConfigured }) := by
  unfold Fifo.whenConfigured
  cases s.configured <;> simp

/-- A configured core runs the command. -/
theorem Fifo.whenConfigured_of_configured {s : Fifo p} (port : Port) (done : Fifo p) (on : s.configured = true) :
    s.whenConfigured port done = done := by
  simp [Fifo.whenConfigured, on]

/-- An unconfigured core answers NOT_CONFIGURED. -/
theorem Fifo.whenConfigured_of_unconfigured {s : Fifo p} (port : Port) (done : Fifo p) (off : s.configured = false) :
    s.whenConfigured port done = s.respond port { status := .notConfigured } := by
  simp [Fifo.whenConfigured, off]

/-! ## Next states -/

/-- The next state of a machine of given widths is one of those widths. -/
@[simp] theorem State.next_mk (s t : Fifo p) :
    State.next { params := p, fifo := s } t = .next { params := p, fifo := t } := rfl

@[simp] theorem State.next_ne_refused {s : State} {t : Fifo s.params} {r : Refusal} : s.next t ≠ .refused r := by
  simp [State.next]

/-- A next state keeps the widths (R42). -/
theorem State.params_of_next {s u : State} {t : Fifo s.params} (taken : s.next t = .next u) : u.params = s.params := by
  cases taken
  rfl

/-! ## Operands and cursors -/

/-- The field of ARG that holds a cursor value holds it whole. -/
@[simp] theorem Params.cursor_toNat (c : Cursor p) : p.cursor c.toNat = c := by simp

/-- The field of ADDR that holds an address holds it whole. -/
@[simp] theorem Params.addr_toNat (a : Addr p) : p.addr a.toNat = a := by simp

/-- A payload fits exactly when it has `n` bytes, for an `n` that fits in ARG (R73). -/
theorem payloadFits_iff {n : Nat} (payload : List Byte) (small : n < 2 ^ p.cursorW) :
    payloadFits p n payload = true ↔ payload.length = n := by
  simp [payloadFits, Nat.mod_eq_of_lt small]

/-- A payload fits a cursor value exactly when it has that many bytes. -/
theorem payloadFits_toNat (n : Cursor p) (payload : List Byte) :
    payloadFits p n.toNat payload = true ↔ payload.length = n.toNat := payloadFits_iff payload n.isLt

/-- `a +_W b` as numbers, without a division (R14). -/
theorem Cursor.add_toNat (a b : Cursor p) :
    (a + b).toNat = if a.toNat + b.toNat < 2 ^ p.cursorW then a.toNat + b.toNat else a.toNat + b.toNat - 2 ^ p.cursorW := by
  have := a.isLt
  have := b.isLt
  rw [BitVec.toNat_add]
  split_ifs with small
  · exact Nat.mod_eq_of_lt small
  · rw [Nat.mod_eq_sub_mod (by omega), Nat.mod_eq_of_lt (by omega)]

/-- `a -_W b` as numbers, without a division (R14). -/
theorem Cursor.sub_toNat (a b : Cursor p) :
    (a - b).toNat = if b.toNat ≤ a.toNat then a.toNat - b.toNat else a.toNat + 2 ^ p.cursorW - b.toNat := by
  have := a.isLt
  have := b.isLt
  rw [BitVec.toNat_sub]
  split_ifs with le
  · rw [Nat.mod_eq_sub_mod (by omega), Nat.mod_eq_of_lt (by omega)]
    omega
  · rw [Nat.mod_eq_of_lt (by omega)]
    omega

/-- A number that fits in a cursor is the number the cursor holds. -/
theorem Params.toNat_cursor {n : Nat} (small : n < 2 ^ p.cursorW) : (p.cursor n).toNat = n := by
  simp [Nat.mod_eq_of_lt small]

/-- The minimum of two counts, as numbers. -/
theorem minOf_toNat (a b : Cursor p) : (minOf a b).toNat = min a.toNat b.toNat := by
  unfold minOf
  split_ifs with le
  · exact (min_eq_left (BitVec.le_def.mp le)).symm
  · exact (min_eq_right (by have := BitVec.le_def.not.mp le; omega)).symm

/-- A storage address depends on POOL_BASE and MASK alone. -/
theorem Fifo.saddr_congr {s t : Fifo p} (base : s.poolBase = t.poolBase) (mask : s.mask = t.mask) (c : Cursor p) :
    s.saddr c = t.saddr c := by
  unfold Fifo.saddr
  rw [base, mask]

/-- A producer's bulk transfer changes WC, memory and port P's responses (R103, R104). -/
theorem Fifo.writeBytes_eq (s : Fifo p) (k : Cursor p) (payload : List Byte) :
    s.writeBytes k payload = { s with
      wc := s.wc + k, mem := (s.copyIn s.wc (payload.take k.toNat)).mem,
      respP := s.respP ++ [{ status := .ok, value := k }] } := by
  unfold Fifo.writeBytes
  rw [Fifo.copyIn_eq]
  rfl

/-! ## What the agents do -/

/-- A query answers NOT_CONFIGURED or its value, and writes nothing else (R89). -/
theorem Fifo.answerQuery_cases {s : Fifo p} {side : Side} {value : Cursor p} :
    (s.configured = true ∧ s.answerQuery side value = s.respond side.port { status := .ok, value := value }) ∨
      (s.configured = false ∧ s.answerQuery side value = s.respond side.port { status := .notConfigured }) :=
  Fifo.whenConfigured_cases

/-- A transaction that spells a command runs it (R88). -/
theorem portStep_command {s : State} {port : Port} {word : CmdWord s.params} {payload : List Byte} {i : Instr}
    (spells : decode port word payload = .command i) : portStep s port word payload = exec i s := by
  unfold portStep
  rw [spells]

/-- A transaction with the ILLEGAL verdict is answered ILLEGAL (R75). -/
theorem portStep_illegal {s : State} {port : Port} {word : CmdWord s.params} {payload : List Byte}
    (verdict : decode port word payload = .illegal) :
    portStep s port word payload = s.next (s.fifo.respond port { status := .illegal }) := by
  unfold portStep
  rw [verdict]

/-- A refused transaction has no step (R73). -/
theorem portStep_refused {s : State} {port : Port} {word : CmdWord s.params} {payload : List Byte}
    (verdict : decode port word payload = .refused) : portStep s port word payload = .refused .payloadLength := by
  unfold portStep
  rw [verdict]

/-- An external write changes memory, and FAULTS when the byte is committed (R51). -/
theorem Fifo.extWrite_eq (s : Fifo p) (a : Addr p) (v : Byte) :
    s.extWrite a v = { s with
      mem := Memory.insert s.mem a.toNat v,
      faults := if s.configured && s.committed a then FaultSet.add .extWriteCommitted s.faults else s.faults } := by
  unfold Fifo.extWrite Fifo.raiseIf
  split <;> rfl

/-- A crossing's step is its copy while it is enabled, and none while it is not (R118, R119). -/
theorem crossingStep_cases {s : State} {enabled : Bool} {done : Fifo s.params} :
    (enabled = true ∧ crossingStep s enabled done = s.next done) ∨
      (enabled = false ∧ crossingStep s enabled done = .refused .crossingNotEnabled) := by
  unfold crossingStep
  cases enabled <;> simp

/-- An agent step that is taken is enabled (R118, R119). -/
theorem enables_of_agentStep {s t : State} {move : AgentStep s.params} (taken : agentStep s move = .next t) :
    s.fifo.enables move = true := by
  unfold agentStep crossingStep at taken
  unfold Fifo.enables
  cases move with
  | crossR2P | crossW2C => by_contra off; simp [off] at taken
  | _ => rfl

/-- X_R2P is taken exactly when it is enabled, and it then leaves RC_SYNC equal to RC (R118). -/
theorem agentStep_crossR2P_iff {s t : Fifo p} :
    agentStep { params := p, fifo := s } .crossR2P = .next { params := p, fifo := t } ↔
      s.r2pEnabled = true ∧ t = { s with rcSync := s.rc } := by
  rw [← Fifo.crossR2P_eq]
  cases enabled : s.r2pEnabled <;> simp [agentStep, crossingStep, enabled, eq_comm]

/-- X_W2C is taken exactly when it is enabled, and it then leaves WC_SYNC equal to WC (R119). -/
theorem agentStep_crossW2C_iff {s t : Fifo p} :
    agentStep { params := p, fifo := s } .crossW2C = .next { params := p, fifo := t } ↔
      s.w2cEnabled = true ∧ t = { s with wcSync := s.wc } := by
  rw [← Fifo.crossW2C_eq]
  cases enabled : s.w2cEnabled <;> simp [agentStep, crossingStep, enabled, eq_comm]

/-! ## One step of the machine, and many -/

/-- The oldest agent step still to come is the next one if it is enabled; else it is passed over. -/
theorem Fifo.due_cons {s : Fifo p} {move : AgentStep p} {rest : List (AgentStep p)} (oldest : s.inputs = move :: rest) :
    s.due = if s.enables move then move :: rest else Fifo.due { s with inputs := rest } := by
  have same : ∀ other, Fifo.enables { s with inputs := rest } other = s.enables other := fun other => by cases other <;> rfl
  unfold Fifo.due
  rw [oldest, List.dropWhile_cons]
  simp only [same]
  cases s.enables move <;> rfl

/-- With no agent step left, the machine idles. -/
theorem step_idle {s : Fifo p} (none : s.due = []) :
    step { params := p, fifo := s } = .next { params := p, fifo := Fifo.idle { s with inputs := [] } } := by
  unfold step
  rw [none]
  rfl

/-- Otherwise the oldest enabled agent step is taken. -/
theorem step_cons {s : Fifo p} {move : AgentStep p} {rest : List (AgentStep p)} (some : s.due = move :: rest) :
    step { params := p, fifo := s } = agentStep { params := p, fifo := { s with inputs := rest } } move := by
  unfold step
  rw [some]

/-- A schedule placed first runs first: its first agent step is taken and the rest follows. -/
theorem steps_schedule_cons {s t : Fifo p} {move : AgentStep p} {moves : List (AgentStep p)}
    (taken : agentStep { params := p, fifo := s.schedule moves } move = .next { params := p, fifo := t }) :
    steps (move :: moves).length { params := p, fifo := s.schedule (move :: moves) } =
      steps moves.length { params := p, fifo := t } := by
  have enabled : (s.schedule (move :: moves)).enables move = true := by
    rw [← enables_of_agentStep taken]
    cases move <;> rfl
  have oldest : (s.schedule (move :: moves)).due = move :: (moves ++ s.inputs) := by
    rw [Fifo.due_cons (move := move) (rest := moves ++ s.inputs) rfl, enabled]
    rfl
  have first : step { params := p, fifo := s.schedule (move :: moves) } = .next { params := p, fifo := t } := by
    rw [step_cons oldest, ← taken]
    rfl
  rw [List.length_cons]
  simp only [steps, first]

end Sys2Proof.Machine
end

