-- ==== Sys2Proof/Laws/PerInstr.lean ====
section
/-! SUPPORT. Statements about every command as syntax, one lemma per constructor. -/

namespace Sys2Proof.Laws.PortLegal

/-- The word an agent sends for a command carries an assigned OP, and the command's port may issue that OP's group
(R70, R74, R84), at every width. -/
def Statement (i : Instr) : Prop :=
  ∀ p : Params, (∃ op, Op.ofByte (fieldOp (i.word p)) = some op) ∧ (groupOf (fieldOp (i.word p))).legalOn i.port = true

/-- The statement from the OP byte the command's word carries. -/
theorem of_fieldOp {i : Instr} {byte : Byte} (carries : ∀ p, fieldOp (i.word p) = byte)
    (assigned : ∃ op, Op.ofByte byte = some op) (legal : (groupOf byte).legalOn i.port = true) : Statement i := by
  intro p
  rw [carries p]
  exact ⟨assigned, legal⟩

theorem init (base bytes : Nat) : Statement (.init base bytes) :=
  of_fieldOp (byte := 0x01) (fun _ => fieldOp_packWord _ _ _ _) ⟨_, rfl⟩ rfl

theorem reset : Statement .reset := of_fieldOp (byte := 0x02) (fun _ => fieldOp_packWord _ _ _ _) ⟨_, rfl⟩ rfl

theorem size (side : Side) : Statement (.size side) :=
  of_fieldOp (byte := 0x40) (fun _ => fieldOp_packWord _ _ _ _) ⟨_, rfl⟩ (by cases side <;> rfl)

theorem used (side : Side) : Statement (.used side) :=
  of_fieldOp (byte := 0x41) (fun _ => fieldOp_packWord _ _ _ _) ⟨_, rfl⟩ (by cases side <;> rfl)

theorem free (side : Side) : Statement (.free side) :=
  of_fieldOp (byte := 0x42) (fun _ => fieldOp_packWord _ _ _ _) ⟨_, rfl⟩ (by cases side <;> rfl)

theorem isFull (side : Side) : Statement (.isFull side) :=
  of_fieldOp (byte := 0x43) (fun _ => fieldOp_packWord _ _ _ _) ⟨_, rfl⟩ (by cases side <;> rfl)

theorem isEmpty (side : Side) : Statement (.isEmpty side) :=
  of_fieldOp (byte := 0x44) (fun _ => fieldOp_packWord _ _ _ _) ⟨_, rfl⟩ (by cases side <;> rfl)

theorem writeOne (byte : Byte) : Statement (.writeOne byte) :=
  of_fieldOp (byte := 0x80) (fun _ => fieldOp_packWord _ _ _ _) ⟨_, rfl⟩ rfl

theorem writeBulk (n : Nat) (payload : List Byte) : Statement (.writeBulk n payload) :=
  of_fieldOp (byte := 0x81) (fun _ => fieldOp_packWord _ _ _ _) ⟨_, rfl⟩ rfl

theorem writeBulkTrunc (n : Nat) (payload : List Byte) : Statement (.writeBulkTrunc n payload) :=
  of_fieldOp (byte := 0x82) (fun _ => fieldOp_packWord _ _ _ _) ⟨_, rfl⟩ rfl

theorem lwRegion : Statement .lwRegion := of_fieldOp (byte := 0x83) (fun _ => fieldOp_packWord _ _ _ _) ⟨_, rfl⟩ rfl

theorem lwRemaining : Statement .lwRemaining := of_fieldOp (byte := 0x84) (fun _ => fieldOp_packWord _ _ _ _) ⟨_, rfl⟩ rfl

theorem lwFinish (n : Nat) : Statement (.lwFinish n) :=
  of_fieldOp (byte := 0x85) (fun _ => fieldOp_packWord _ _ _ _) ⟨_, rfl⟩ rfl

theorem readOne : Statement .readOne := of_fieldOp (byte := 0xC0) (fun _ => fieldOp_packWord _ _ _ _) ⟨_, rfl⟩ rfl

theorem peekOne : Statement .peekOne := of_fieldOp (byte := 0xC1) (fun _ => fieldOp_packWord _ _ _ _) ⟨_, rfl⟩ rfl

theorem readBulk (n : Nat) : Statement (.readBulk n) :=
  of_fieldOp (byte := 0xC2) (fun _ => fieldOp_packWord _ _ _ _) ⟨_, rfl⟩ rfl

theorem lrRegion : Statement .lrRegion := of_fieldOp (byte := 0xC3) (fun _ => fieldOp_packWord _ _ _ _) ⟨_, rfl⟩ rfl

theorem lrRemaining : Statement .lrRemaining := of_fieldOp (byte := 0xC4) (fun _ => fieldOp_packWord _ _ _ _) ⟨_, rfl⟩ rfl

theorem lrFinish (n : Nat) : Statement (.lrFinish n) :=
  of_fieldOp (byte := 0xC5) (fun _ => fieldOp_packWord _ _ _ _) ⟨_, rfl⟩ rfl

end Sys2Proof.Laws.PortLegal
end

