-- ==== Sys2Proof/Tests/Slice0.lean ====
section
/-! SUPPORT. Small tests: expected results come from spec/95_test_vectors.md (the vector named in each comment) and the worked examples
of the rules; then the witnesses that the statements' hypotheses can be met. -/

namespace Sys2Proof.Tests

open Sys2Proof.Machine

/-- A configured core at the default widths: capacity 8 at 0x1000, with the four cursors given. -/
def core8 (wc rc rcSync wcSync : Cursor .default) : Fifo .default :=
  { Fifo.reset .default with
    configured := true, poolBase := 0x1000, capacity := 8, mask := 7, wc := wc, rc := rc, rcSync := rcSync, wcSync := wcSync }

/-- A synchronised core with three committed bytes at offsets 0, 1, 2 (VE1). -/
def three : Fifo .default := { core8 11 8 8 11 with mem := [(0x1000, 0x41), (0x1001, 0x42), (0x1002, 0x43)] }

/-- The core just after power-on, unconfigured. -/
abbrev off : Fifo .default := Fifo.reset .default

/-- The machine at the default widths. -/
abbrev at32 (s : Fifo .default) : State := ⟨.default, s⟩

/-- The decoder at the default widths. -/
abbrev decode32 (port : Port) (word : CmdWord .default) (payload : List Byte) : Verdict := decode port word payload

/-- CURSOR_W = 8 and ADDR_W = 16, the widths of L3-4. -/
def narrow : Params where
  cursorW := 8
  addrW := 16
  two_le_cursorW := by decide
  one_le_addrW := by decide

/-- The start of L3-4: capacity 4 at 0x0100, every cursor 0xFE. -/
def narrowCore : Fifo narrow :=
  { Fifo.reset narrow with
    configured := true, poolBase := 0x0100, capacity := 4, mask := 3, wc := 0xFE, rc := 0xFE, rcSync := 0xFE, wcSync := 0xFE }

/-! ## Well-formedness -/

/-- VB13: three bytes announced, two carried. -/
theorem test_wf_bulk : (Instr.writeBulk 3 [1, 2]).wf .default = false ∧ (Instr.writeBulk 2 [1, 2]).wf .default = true := by decide

theorem test_wf_trunc : (Instr.writeBulkTrunc 1 [1, 2]).wf .default = false ∧
    (Instr.writeBulkTrunc 0 []).wf .default = true := by decide

/-- Operands that do not fit in their fields, one check each. -/
theorem test_wf_operands :
    (Instr.init 0x100000000 8).wf .default = false ∧ (Instr.init 0x1000 0x100000000).wf .default = false ∧
    (Instr.lwFinish 256).wf narrow = false ∧ (Instr.readBulk 256).wf narrow = false ∧ (Instr.lrFinish 256).wf narrow = false ∧
    (Instr.writeBulk 256 []).wf narrow = false ∧ (Instr.writeBulkTrunc 256 []).wf narrow = false ∧
    (Instr.init 0xFFFF 255).wf narrow = true := by decide

/-! ## Decoding: words of R84, section 3 and section 4 -/

theorem test_decode_init : decode32 .k 0xFFFFFFFC000000080001 [] = .command (.init 0xFFFFFFFC 8) := by decide
theorem test_decode_reset : decode32 .k 0x00000000000000000002 [] = .command .reset := by decide
theorem test_decode_size : decode32 .c 0x00000000000000000040 [] = .command (.size .consumer) := by decide
theorem test_decode_used : decode32 .p 0x00000000000000000041 [] = .command (.used .producer) := by decide
theorem test_decode_free : decode32 .p 0x00000000000000000042 [] = .command (.free .producer) := by decide
theorem test_decode_isFull : decode32 .p 0x00000000000000000043 [] = .command (.isFull .producer) := by decide
theorem test_decode_isEmpty : decode32 .c 0x00000000000000000044 [] = .command (.isEmpty .consumer) := by decide
/-- VD7: the ADDR field is ignored. -/
theorem test_decode_writeOne : decode32 .p 0xFFFFFFFF00000000AB80 [] = .command (.writeOne 0xAB) := by decide
theorem test_decode_writeBulk : decode32 .p 0x00000000000000030081 [0xA0, 0xA1, 0xA2] =
    .command (.writeBulk 3 [0xA0, 0xA1, 0xA2]) := by decide
theorem test_decode_writeBulkTrunc : decode32 .p 0x00000000000000020082 [5, 6] = .command (.writeBulkTrunc 2 [5, 6]) := by decide
theorem test_decode_lwRegion : decode32 .p 0x00000000000000000083 [] = .command .lwRegion := by decide
theorem test_decode_lwRemaining : decode32 .p 0x00000000000000000084 [] = .command .lwRemaining := by decide
theorem test_decode_lwFinish : decode32 .p 0x00000000000000050085 [] = .command (.lwFinish 5) := by decide
theorem test_decode_readOne : decode32 .c 0x000000000000000000C0 [] = .command .readOne := by decide
theorem test_decode_peekOne : decode32 .c 0x000000000000000000C1 [] = .command .peekOne := by decide
theorem test_decode_readBulk : decode32 .c 0x000000000000000800C2 [] = .command (.readBulk 8) := by decide
theorem test_decode_lrRegion : decode32 .c 0x000000000000000000C3 [] = .command .lrRegion := by decide
theorem test_decode_lrRemaining : decode32 .c 0x000000000000000000C4 [] = .command .lrRemaining := by decide
theorem test_decode_lrFinish : decode32 .c 0x000000000000000200C5 [] = .command (.lrFinish 2) := by decide

/-- VD1, VD2: unassigned OPs, at the edges of R75's ranges. -/
theorem test_decode_unassigned :
    decode32 .k 0x00 [] = .illegal ∧ decode32 .k 0x03 [] = .illegal ∧ decode32 .k 0x3F [] = .illegal ∧
    decode32 .p 0x45 [] = .illegal ∧ decode32 .c 0x7F [] = .illegal ∧ decode32 .p 0x86 [] = .illegal ∧
    decode32 .p 0xBF [] = .illegal ∧ decode32 .c 0xC6 [] = .illegal ∧ decode32 .c 0xFF [] = .illegal := by decide

/-- VD3 to VD6, VS11, VR5: a legal OP on the wrong port. -/
theorem test_decode_wrong_port :
    decode32 .p 0x00001000000000080001 [] = .illegal ∧ decode32 .k 0x40 [] = .illegal ∧ decode32 .c 0x85 [] = .illegal ∧
    decode32 .p 0xC0 [] = .illegal ∧ decode32 .c 0x3380 [] = .illegal ∧ decode32 .c 0x02 [] = .illegal := by decide

/-- VB13, VB14 are refused; VD9: an unassigned OP with a payload is ILLEGAL. -/
theorem test_decode_payload :
    decode32 .p 0x00000000000000030081 [1, 2] = .refused ∧ decode32 .p 0x0180 [1] = .refused ∧
    decode32 .p 0x03 [1, 2, 3, 4, 5] = .illegal := by decide

/-- The opcode table's words, eight bits each, decode on their group's port. -/
theorem test_tableWord : decodeTableWord 8 0xC2 = some (.readBulk 0) ∧ decodeTableWord 8 0x81 = some (.writeBulk 0 []) ∧
    decodeTableWord 8 0x01 = some (.init 0 0) ∧ decodeTableWord 8 0x00 = none := by decide

/-- R84: the encoder's words. -/
theorem test_encode : (encode .default (.init 0x1000 8)).word = 0x00001000000000080001 ∧
    (encode .default (.writeOne 0x5A)).word = 0x00000000000000005A80 ∧
    (encode .default (.readBulk 4)).word = 0x000000000000000400C2 := by decide

/-- VD10, VD11, VD12 and R84's response example. -/
theorem test_response_word :
    Response.word (p := .default) { status := .ok, value := 1, rdata := 0xAB } = 0x0000000000000001AB00 ∧
    Response.word (p := .default) { status := .full } = 0x00000000000000000001 ∧
    Response.word (p := .default) { status := .configError } = 0x00000000000000000003 ∧
    Response.word (p := .default) { status := .ok, value := 5, raddr := 0x1003 } = 0x00001003000000050000 := by decide

/-- VD13 and L3-4, at CURSOR_W = 8 and ADDR_W = 16: the words have 40 bits and the layout follows the widths. -/
theorem test_narrow_words :
    Response.word (p := narrow) { status := .ok, value := 2, raddr := 0x0102 } = 0x0102020000 ∧
    decode (p := narrow) .c 0x00000200C5 [] = .command (.lrFinish 2) ∧ (encode narrow (.lrFinish 2)).word = 0x00000200C5 ∧
    decode (p := narrow) .k 0x0100040001 [] = .command (.init 0x0100 4) := by decide

/-! ## Commands, one step each -/

/-- VQ1: SIZE on both ports. -/
theorem test_size :
    exec (.size .producer) (at32 (core8 0 0 0 0)) = .next (at32 { core8 0 0 0 0 with respP := [{ status := .ok, value := 8 }] }) ∧
    exec (.size .consumer) (at32 (core8 0 0 0 0)) = .next (at32 { core8 0 0 0 0 with respC := [{ status := .ok, value := 8 }] }) :=
  ⟨rfl, rfl⟩

/-- VQ5: the P view over-states, the C view under-states. -/
theorem test_used :
    exec (.used .producer) (at32 (core8 8 3 0 5)) = .next (at32 { core8 8 3 0 5 with respP := [{ status := .ok, value := 8 }] }) ∧
    exec (.used .consumer) (at32 (core8 8 3 0 5)) = .next (at32 { core8 8 3 0 5 with respC := [{ status := .ok, value := 2 }] }) :=
  ⟨rfl, rfl⟩

/-- VQ6, L3-4 line 3: the difference across the wrap of an 8-bit cursor. -/
theorem test_used_narrow :
    exec (.used .producer) ⟨narrow, { narrowCore with wc := 0x02 }⟩ =
      .next ⟨narrow, { narrowCore with wc := 0x02, respP := [{ status := .ok, value := 4 }] }⟩ := rfl

/-- VQ3. -/
theorem test_free :
    exec (.free .producer) (at32 (core8 6 2 2 6)) =
      .next (at32 { core8 6 2 2 6 with respP := [{ status := .ok, value := 4 }] }) := rfl

/-- VQ4: full is not empty. -/
theorem test_isFull :
    exec (.isFull .producer) (at32 (core8 8 0 0 8)) =
      .next (at32 { core8 8 0 0 8 with respP := [{ status := .ok, value := 1 }] }) := rfl

theorem test_isEmpty :
    exec (.isEmpty .producer) (at32 (core8 8 0 0 8)) =
      .next (at32 { core8 8 0 0 8 with respP := [{ status := .ok, value := 0 }] }) ∧
    exec (.isEmpty .consumer) (at32 (core8 6 0 0 0)) =
      .next (at32 { core8 6 0 0 0 with respC := [{ status := .ok, value := 1 }] }) :=
  ⟨rfl, rfl⟩

/-- VQ7: unconfigured. -/
theorem test_unconfigured : exec (.used .consumer) (at32 off) =
    .next (at32 { off with respC := [{ status := .notConfigured }] }) := rfl

/-- VI1, VI3, VI4, VI5, VI6, VI7. -/
theorem test_legalConfig :
    legalConfig (0x1000 : BitVec 32) (8 : BitVec 32) = true ∧ legalConfig (0x1000 : BitVec 32) (0x80000000 : BitVec 32) = true ∧
    legalConfig (0x1000 : BitVec 32) (6 : BitVec 32) = false ∧ legalConfig (0x1000 : BitVec 32) (0 : BitVec 32) = false ∧
    legalConfig (0x1000 : BitVec 32) (0x80000001 : BitVec 32) = false ∧ legalConfig (0 : BitVec 32) (8 : BitVec 32) = false ∧
    legalConfig (0xFFFFFFF8 : BitVec 32) (8 : BitVec 32) = true ∧ legalConfig (0xFFFFFFFC : BitVec 32) (8 : BitVec 32) = false := by
  decide

/-- VI8: re-binding zeroes the four cursors. -/
theorem test_init_ok : exec (.init 0x3000 16) (at32 (core8 5 2 2 5)) =
    .next (at32 { core8 0 0 0 0 with poolBase := 0x3000, capacity := 16, mask := 15, respK := [{ status := .ok }] }) := rfl

/-- VI9, VI11: a failed INIT clears CONFIGURED, keeps the registers and records an open window. -/
theorem test_init_fails : exec (.init 0x1000 6) (at32 { core8 5 2 2 5 with lrOpen := true }) =
    .next (at32 { core8 5 2 2 5 with
      configured := false, faults := [.initWithOpenWindow], respK := [{ status := .configError }] }) := rfl

/-- VR2: all four cursors at once. -/
theorem test_reset : exec .reset (at32 (core8 13 9 4 10)) = .next (at32 { core8 0 0 0 0 with respK := [{ status := .ok }] }) := rfl

/-- VR3: a window open at the RESET. -/
theorem test_reset_open : exec .reset (at32 { core8 11 8 8 11 with lwOpen := true }) =
    .next (at32 { core8 0 0 0 0 with faults := [.resetWithOpenWindow], respK := [{ status := .ok }] }) := rfl

/-- VS2: the wrap to offset 0. -/
theorem test_writeOne : exec (.writeOne 0xCD) (at32 (core8 8 3 3 8)) =
    .next (at32 { core8 9 3 3 8 with mem := [(0x1000, 0xCD)], respP := [{ status := .ok, value := 1 }] }) := rfl

/-- VS4: a stale FULL. -/
theorem test_writeOne_full : exec (.writeOne 1) (at32 (core8 8 8 0 8)) =
    .next (at32 { core8 8 8 0 8 with respP := [{ status := .full }] }) := rfl

/-- VS6. -/
theorem test_readOne : exec .readOne (at32 { core8 9 7 7 9 with mem := [(0x1007, 0xAB)] }) =
    .next (at32 { core8 9 8 7 9 with mem := [(0x1007, 0xAB)], respC := [{ status := .ok, value := 1, rdata := 0xAB }] }) := rfl

/-- VS8: a stale EMPTY. -/
theorem test_readOne_empty : exec .readOne (at32 (core8 12 9 9 9)) =
    .next (at32 { core8 12 9 9 9 with respC := [{ status := .empty }] }) := rfl

/-- VS9. -/
theorem test_peekOne : exec .peekOne (at32 { core8 9 7 7 9 with mem := [(0x1007, 0xAB)] }) =
    .next (at32 { core8 9 7 7 9 with mem := [(0x1007, 0xAB)], respC := [{ status := .ok, value := 1, rdata := 0xAB }] }) := rfl

/-- VS10. -/
theorem test_peekOne_empty : exec .peekOne (at32 (core8 9 9 9 9)) =
    .next (at32 { core8 9 9 9 9 with respC := [{ status := .empty }] }) := rfl

/-- VB1: the split at remain_in = 2. -/
theorem test_writeBulk : exec (.writeBulk 6 [0x10, 0x11, 0x12, 0x13, 0x14, 0x15]) (at32 (core8 6 4 4 6)) =
    .next (at32 { core8 12 4 4 6 with
      mem := [(0x1000, 0x12), (0x1001, 0x13), (0x1002, 0x14), (0x1003, 0x15), (0x1006, 0x10), (0x1007, 0x11)],
      respP := [{ status := .ok, value := 6 }] }) := rfl

/-- VB2: one byte too many. -/
theorem test_writeBulk_full : exec (.writeBulk 7 [0, 1, 2, 3, 4, 5, 6]) (at32 (core8 6 4 4 6)) =
    .next (at32 { core8 6 4 4 6 with respP := [{ status := .full }] }) := rfl

/-- L3-4 line 2: a bulk write across the wrap of an 8-bit cursor and the end of storage. -/
theorem test_writeBulk_narrow : exec (.writeBulk 4 [0xB0, 0xB1, 0xB2, 0xB3]) ⟨narrow, narrowCore⟩ =
    .next ⟨narrow, { narrowCore with
      wc := 0x02, mem := [(0x0100, 0xB2), (0x0101, 0xB3), (0x0102, 0xB0), (0x0103, 0xB1)],
      respP := [{ status := .ok, value := 4 }] }⟩ := rfl

/-- VB6: bytes 4 and 5 are dropped. -/
theorem test_writeBulkTrunc : exec (.writeBulkTrunc 5 [1, 2, 3, 4, 5]) (at32 (core8 5 0 0 5)) =
    .next (at32 { core8 8 0 0 5 with
      mem := [(0x1005, 1), (0x1006, 2), (0x1007, 3)], respP := [{ status := .ok, value := 3 }] }) := rfl

/-- VB7: a full view. -/
theorem test_writeBulkTrunc_full : exec (.writeBulkTrunc 2 [5, 6]) (at32 (core8 8 0 0 8)) =
    .next (at32 { core8 8 0 0 8 with respP := [{ status := .ok, value := 0 }] }) := rfl

/-- VB9, shortened: the split at remain_out = 2 read as bytes 6, 7, 0. -/
theorem test_readBulk : exec (.readBulk 3) (at32 { core8 12 6 6 12 with mem := [(0x1000, 0x22), (0x1006, 0x20), (0x1007, 0x21)] }) =
    .next (at32 { core8 12 9 6 12 with
      mem := [(0x1000, 0x22), (0x1006, 0x20), (0x1007, 0x21)],
      respC := [{ status := .ok, value := 3, payload := [0x20, 0x21, 0x22] }] }) := rfl

/-- VB10. -/
theorem test_readBulk_empty : exec (.readBulk 3) (at32 (core8 6 4 4 6)) =
    .next (at32 { core8 6 4 4 6 with respC := [{ status := .empty }] }) := rfl

/-- VL1. -/
theorem test_lwRegion : exec .lwRegion (at32 (core8 11 8 8 11)) =
    .next (at32 { core8 11 8 8 11 with lwOpen := true, respP := [{ status := .ok, value := 5, raddr := 0x1003 }] }) := rfl

/-- VL2. -/
theorem test_lwRemaining : exec .lwRemaining (at32 (core8 11 8 8 11)) =
    .next (at32 { core8 11 8 8 11 with respP := [{ status := .ok, value := 5 }] }) := rfl

/-- VL7: both faults. -/
theorem test_lwFinish : exec (.lwFinish 6) (at32 (core8 11 8 8 11)) =
    .next (at32 { core8 17 8 8 11 with faults := [.lwFinishBeyondRegion, .lwFinishBeyondFree], respP := [{ status := .ok }] }) :=
  rfl

/-- VL8: beyond the free space only. -/
theorem test_lwFinish_free : exec (.lwFinish 4) (at32 (core8 11 8 6 11)) =
    .next (at32 { core8 15 8 6 11 with faults := [.lwFinishBeyondFree], respP := [{ status := .ok }] }) := rfl

/-- VL12: the window is not the occupancy. -/
theorem test_lrRegion : exec .lrRegion (at32 (core8 6 6 6 6)) =
    .next (at32 { core8 6 6 6 6 with lrOpen := true, respC := [{ status := .ok, value := 2, raddr := 0x1006 }] }) := rfl

/-- VL11. -/
theorem test_lrRemaining : exec .lrRemaining (at32 (core8 6 6 6 6)) =
    .next (at32 { core8 6 6 6 6 with respC := [{ status := .ok, value := 2 }] }) := rfl

/-- VL14. -/
theorem test_lrFinish_used : exec (.lrFinish 2) (at32 (core8 7 6 6 7)) =
    .next (at32 { core8 7 8 6 7 with faults := [.lrFinishBeyondUsed], respC := [{ status := .ok }] }) := rfl

/-- VL15. -/
theorem test_lrFinish_region : exec (.lrFinish 3) (at32 (core8 12 6 6 12)) =
    .next (at32 { core8 12 9 6 12 with faults := [.lrFinishBeyondRegion], respC := [{ status := .ok }] }) := rfl

/-! ## Crossings, external accesses, flags -/

/-- VX1, VX3. -/
theorem test_crossR2P : (core8 12 12 4 12).crossR2P.rcSync = 12 ∧ (core8 12 12 4 12).crossR2P.freeP = 8 ∧
    (core8 12 12 12 12).r2pEnabled = false := by decide

/-- VX4: the copy takes the current value. -/
theorem test_crossW2C : (core8 9 3 3 3).crossW2C.wcSync = 9 := by decide

/-- VE1, VE2, VE3, VE6: which bytes are committed. -/
theorem test_committed : three.committed 0x1001 = true ∧ three.committed 0x1003 = false ∧ three.committed 0x0FFF = false ∧
    three.committed 0x1008 = false ∧ (core8 11 11 8 11).committed 0x1001 = false := by decide

/-- VE2, VE4. -/
theorem test_extWrite : (three.extWrite 0x1001 0x55).faults = [ModelFault.extWriteCommitted] ∧
    (three.extWrite 0x1001 0x55).mem = [(0x1000, 0x41), (0x1001, 0x55), (0x1002, 0x43)] ∧
    (off.extWrite 0x1001 0x55).faults = [] := by decide

/-- VE5. -/
theorem test_extRead : (three.extRead 0x1002).extReads = [0x43] := by decide

/-- VF1, VF3. -/
theorem test_flags : off.flags .producer = { used := 0, free := 0, full := true, empty := true } ∧
    (core8 8 3 0 5).flags .producer = { used := 8, free := 0, full := true, empty := false } ∧
    (core8 8 3 0 5).flags .consumer = { used := 2, free := 6, full := false, empty := false } := by decide

/-! ## The machine's step -/

/-- The word of INIT in the opcode table runs as the first step after reset. -/
theorem test_step_tableWord : step (State.reset.withFetchWord 8 0x01) = exec (.init 0 0) State.reset := rfl

/-- L3-5 line 16: ILLEGAL is checked before NOT_CONFIGURED. -/
theorem test_step_illegal : step (at32 { off with inputs := [.command .c 0x3380 []] }) =
    .next (at32 { off with respC := [{ status := .illegal }] }) := rfl

/-- VX3: a listed crossing that is not enabled takes no step, so the step after it is taken at once. -/
theorem test_step_disabled_crossing : step (at32 { three with inputs := [.crossR2P, .command .c 0x40 []] }) =
    .next (at32 { three with respC := [{ status := .ok, value := 8 }] }) := rfl

/-! ## The assembler's notation -/

/-- R84's first line, with a comment, and a pseudo-instruction. -/
theorem test_assemble : assemble .default "K: INIT 0x1000, 8 ; bind" =
      some (.command { port := .k, word := 0x00001000000000080001, payload := [] }) ∧
    assemble .default "P: WRITE_BULK 3, [1, 2]" = none ∧ assemble .default "C: DMA_DRAIN 2" = some (.dmaDrain 2) := by decide

/-- L3-4 line 10, at its widths; a number that does not fit; the model's choice on a line that holds only a comment (log 13). -/
theorem test_assemble_narrow :
    assemble narrow "C: LR_FINISH 2" = some (.command { port := .c, word := 0x00000200C5, payload := [] }) ∧
    assemble narrow "C: LR_FINISH 256" = none ∧ assemble narrow "; a comment" = none := by decide

/-- L3-2 lines 4 to 11: DMA_FILL's expansion, and its rejection when the window is too short. -/
theorem test_dmaFill : (Line.dmaFill [0x30]).steps (core8 3 3 3 3) =
      some [.command .p 0x83 [], .extWrite 0x1003 0x30, .command .p 0x00000000000000010085 []] ∧
    (Line.dmaFill [0x30, 0x31]).steps (core8 7 7 7 7) = none := by decide

/-- R85. -/
theorem test_disassemble :
    disassemble (p := .default) { port := .p, word := 0x00000000000000020082, payload := [5, 6] } =
      "P: WRITE_BULK_TRUNC 2, [5, 6]" ∧
    disassemble (p := .default) { port := .p, word := 0x46, payload := [] } = ".illegal 0x46" := by decide

/-! ## Witnesses: the statements' hypotheses can be met -/

theorem three_inv : three.Inv ∧ three.ContractKept ∧ three.configured = true ∧ three.ConfigOk ∧ three.ViewOk ∧
    three.Synchronised := by
  decide

theorem witness_PowerOnEventKeepsFaultsAndMemory : ({ three with inputs := [.powerOn, .crossR2P] } : Fifo .default).inputs =
    .powerOn :: [.crossR2P] := by decide

theorem witness_NoStepChangesTheWidths :
    ∃ t : Fifo narrow, step ⟨narrow, { narrowCore with inputs := [.command .p 0x41 []] }⟩ = .next ⟨narrow, t⟩ := ⟨_, rfl⟩

theorem witness_StepRunsTheDecodedCommand :
    ({ three with inputs := [.command .c 0xC0 []] } : Fifo .default).inputs = .command .c 0xC0 [] :: [] ∧
    decode32 .c 0xC0 [] = .command .readOne := by decide

theorem witness_IllegalCommandsAnswerIllegalAndChangeNothing :
    ({ three with inputs := [.command .k 0x40 [1]] } : Fifo .default).inputs = .command .k 0x40 [1] :: [] ∧
    decode32 .k 0x40 [1] = .illegal := by decide

theorem witness_WrongPayloadLengthHasNoStep :
    ({ three with inputs := [.command .p 0x80 [1]] } : Fifo .default).inputs = .command .p 0x80 [1] :: [] ∧
    decode32 .p 0x80 [1] = .refused := by decide

/-- L3-3, lines 19 and 20: after line 19 SYNC R2P has a step left; after it the run has ended, with SYNC W2C still listed. -/
theorem test_runEnded :
    ¬ ({ core8 7 7 4 7 with inputs := [.crossR2P, .crossW2C] } : Fifo .default).RunEnded ∧
    ({ core8 7 7 7 7 with inputs := [.crossW2C] } : Fifo .default).RunEnded ∧
    ({ core8 7 7 7 7 with inputs := [.crossW2C] } : Fifo .default).observation.isSome = true ∧
    ({ core8 7 7 7 7 with faults := [.extWriteCommitted] } : Fifo .default).observation = none := by decide

/-- An ended run with a crossing still listed, and a list that has run out with both crossings enabled. -/
theorem witness_IdleStepsEndTheRun :
    ({ core8 7 7 7 7 with inputs := [.crossW2C] } : Fifo .default).RunEnded ∧ (core8 7 7 7 7).ContractKept ∧
    (core8 12 9 4 10).due = [] ∧ (core8 12 9 4 10).r2pEnabled = true ∧ (core8 12 9 4 10).w2cEnabled = true := by decide

theorem witness_DecodeOfEncodeIsTheCommand : (Instr.writeBulk 2 [1, 2]).wf .default = true ∧
    (Instr.init 0xFFFFFFFF 0xFFFFFFFF).wf .default = true := by
  decide

theorem witness_DecodedCommandsAreWellFormedAndEncodeBack :
    decode32 .p 0xFFFFFFFF00000000AB80 [] = .command (.writeOne 0xAB) := by decide

/-- The words of VD7 and VS1 differ, and only where WRITE_ONE does not read. -/
theorem witness_UnreadFieldsAreIgnoredAndWrittenAsZero :
    (0xFFFFFFFF00000000AB80 : CmdWord .default) ≠ 0xAB80 ∧
    fieldOp (0xFFFFFFFF00000000AB80 : CmdWord .default) = fieldOp (0xAB80 : CmdWord .default) ∧
    fieldData (0xFFFFFFFF00000000AB80 : CmdWord .default) = fieldData (0xAB80 : CmdWord .default) := by decide

theorem witness_EveryCommandAnswersItsPortOnce : (Instr.writeBulkTrunc 1 [7]).wf .default = true := by decide

/-- Two bytes announced, one carried; and at CURSOR_W = 8 the operand 256, whose field holds 0. -/
theorem witness_ExecRefusesExactlyWrongPayloadLengths :
    ([1] : List Byte).length ≠ 2 % 2 ^ Params.default.cursorW ∧ ([1] : List Byte).length ≠ 256 % 2 ^ narrow.cursorW := by decide

theorem witness_UnconfiguredCoreAnswersOnlyInit :
    (Instr.writeBulk 1 [7]).wf .default = true ∧ off.configured = false ∧ ∀ base size, Instr.writeBulk 1 [7] ≠ .init base size :=
  ⟨by decide, by decide, fun _ _ h => by cases h⟩

/-- An EMPTY, and a CONFIG_ERROR with a window open. -/
theorem witness_FailedCommandsChangeNothing :
    (∃ t : Fifo .default, exec .readOne (at32 (core8 9 9 9 9)) = .next (at32 t) ∧
      t.responses .c = (core8 9 9 9 9).responses .c ++ [{ status := .empty }]) ∧
    (∃ t : Fifo .default, exec (.init 0 8) (at32 { three with lwOpen := true }) = .next (at32 t) ∧
      t.responses .k = three.responses .k ++ [{ status := .configError }]) := ⟨⟨_, rfl, rfl⟩, ⟨_, rfl, rfl⟩⟩

theorem witness_EachStatusHasItsCause :
    (∃ t : Fifo .default, exec (.writeBulk 1 [7]) (at32 (core8 8 0 0 8)) = .next (at32 t) ∧
      t.responses .p = (core8 8 0 0 8).responses .p ++ [{ status := .full }]) ∧
    (∃ t : Fifo .default, exec (.readBulk 1) (at32 (core8 9 9 9 9)) = .next (at32 t) ∧
      t.responses .c = (core8 9 9 9 9).responses .c ++ [{ status := .empty }]) ∧
    (∃ t : Fifo .default, exec .reset (at32 off) = .next (at32 t) ∧
      t.responses .k = off.responses .k ++ [{ status := .notConfigured }]) :=
  ⟨⟨_, rfl, rfl⟩, ⟨_, rfl, rfl⟩, ⟨_, rfl, rfl⟩⟩

theorem witness_QueriesAnswerFromTheirSidesView : three.configured = true ∧ off.configured = false := by decide

theorem witness_QueriesOfOneSideAgree : three.configured = true := by decide

/-- VI6 and VI7, the two sides of the address limit. -/
theorem witness_InitBindsTheCoreOrLeavesItUnconfigured :
    legalConfig (0xFFFFFFF8 : Addr .default) (8 : Cursor .default) = true ∧
    legalConfig (0xFFFFFFF9 : Addr .default) (8 : Cursor .default) = false := by decide

theorem witness_ResetEmptiesBothViews : three.configured = true ∧ three.ConfigOk ∧ off.configured = false := by decide

theorem witness_ConfiguredLaunchIsCleanAndMeetsTheInvariant :
    off.ConfiguredLaunch 0x1000 8 { core8 0 0 0 0 with respK := [{ status := .ok }] } := ⟨by decide, by decide, rfl⟩

/-- One byte free, and none; ViewOk holds in both. -/
theorem witness_WriteOneStoresTheByteOrAnswersFull :
    (core8 7 0 0 7).configured = true ∧ (core8 7 0 0 7).capacity - ((core8 7 0 0 7).wc - (core8 7 0 0 7).rcSync) = 1 ∧
    (core8 7 0 0 7).ConfigOk ∧ (core8 7 0 0 7).ViewOk ∧
    (core8 8 0 0 8).capacity - ((core8 8 0 0 8).wc - (core8 8 0 0 8).rcSync) = 0 := by decide

theorem witness_ReadOneAnswersTheByteOrEmpty :
    (core8 1 0 0 1).configured = true ∧ (core8 1 0 0 1).wcSync - (core8 1 0 0 1).rc = 1 ∧ (core8 1 0 0 1).ConfigOk ∧
    (core8 1 0 0 1).ViewOk ∧ (core8 1 0 0 0).wcSync - (core8 1 0 0 0).rc = 0 := by decide

theorem witness_PeekOneAnswersTheByteReadOneWillTake :
    three.configured = true ∧ three.wcSync - three.rc ≠ 0 ∧ (core8 1 0 0 0).wcSync - (core8 1 0 0 0).rc = 0 ∧
    ∃ t : Fifo .default, exec .peekOne (at32 three) = .next (at32 t) := ⟨by decide, by decide, by decide, _, rfl⟩

theorem witness_SplitCopyIsTheCopyInCursorOrder :
    three.configured = true ∧ three.ConfigOk ∧ ([1, 2, 3, 4, 5, 6, 7, 8] : List Byte).length ≤ three.capacity.toNat ∧
    8 ≤ three.capacity.toNat := by decide

/-- VB1 and VB2: exactly the free space, and one byte more. -/
theorem witness_WriteBulkStoresAllOrNothing :
    ([0, 1, 2, 3, 4, 5] : List Byte).length = (6 : Cursor .default).toNat ∧ (core8 6 4 4 6).configured = true ∧
    ¬ (core8 6 4 4 6).capacity - ((core8 6 4 4 6).wc - (core8 6 4 4 6).rcSync) < 6 ∧
    (core8 6 4 4 6).capacity - ((core8 6 4 4 6).wc - (core8 6 4 4 6).rcSync) < 7 ∧ (core8 6 4 4 6).ConfigOk ∧
    (6 : Cursor .default).toNat ≤ (core8 6 4 4 6).capacity.toNat ∧ (core8 6 4 4 6).ViewOk ∧
    (core8 6 4 4 6).capacity < 9 := by decide

/-- VB6, and VB7's full view. -/
theorem witness_WriteBulkTruncStoresWhatFits :
    ([1, 2, 3, 4, 5] : List Byte).length = (5 : Cursor .default).toNat ∧ (core8 5 0 0 5).configured = true ∧
    (3 : Cursor .default).toNat =
      min (5 : Cursor .default).toNat ((core8 5 0 0 5).capacity - ((core8 5 0 0 5).wc - (core8 5 0 0 5).rcSync)).toNat ∧
    (core8 5 0 0 5).ConfigOk ∧ (core8 5 0 0 5).ViewOk ∧
    (0 : Cursor .default).toNat =
      min (2 : Cursor .default).toNat ((core8 8 0 0 8).capacity - ((core8 8 0 0 8).wc - (core8 8 0 0 8).rcSync)).toNat := by
  decide

/-- VB12 and VB10. -/
theorem witness_ReadBulkAnswersAllOrNothing :
    (core8 6 4 4 6).configured = true ∧ ¬ (core8 6 4 4 6).wcSync - (core8 6 4 4 6).rc < 2 ∧
    (core8 6 4 4 6).wcSync - (core8 6 4 4 6).rc < 3 ∧ (core8 6 4 4 6).ConfigOk ∧ (core8 6 4 4 6).ViewOk := by decide

/-- Three bytes wait and five are written, wrapping at the end of storage. -/
theorem witness_BulkWriteThenBulkReadReturnsTheBytes :
    three.configured = true ∧ three.ConfigOk ∧ three.ViewOk ∧ three.Synchronised ∧
    ([1, 2, 3, 4, 5] : List Byte).length = (5 : Cursor .default).toNat ∧ (5 : Cursor .default).toNat ≤ three.freeP.toNat ∧
    three.usedTrue = 3 ∧ ([] : List Byte).length = (0 : Cursor .default).toNat := by decide

theorem witness_WriteWindowRunsFromTheWriteCursor :
    three.configured = true ∧ three.ConfigOk ∧ off.configured = false := by decide

theorem witness_ReadWindowRunsFromTheReadCursor :
    three.configured = true ∧ three.ConfigOk ∧ off.configured = false := by decide

theorem witness_WindowsEndWhereStorageEnds : three.configured = true ∧ three.ConfigOk := by decide

theorem witness_WriteFinishCommitsUncheckedAndRecordsBrokenDuties : three.configured = true ∧ off.configured = false := by decide

theorem witness_ReadFinishReleasesUncheckedAndRecordsBrokenDuties : three.configured = true ∧ off.configured = false := by decide

/-- The first window of L3-2: five bytes from offset 3. -/
theorem witness_ZeroCopyFillEqualsOneBulkWrite :
    (core8 3 3 3 3).Inv ∧ (core8 3 3 3 3).ContractKept ∧ (core8 3 3 3 3).configured = true ∧
    ([1, 2, 3, 4, 5] : List Byte).length ≤ (core8 3 3 3 3).remainIn.toNat ∧
    ([1, 2, 3, 4, 5] : List Byte).length ≤ (core8 3 3 3 3).freeP.toNat := by decide

theorem witness_ZeroCopyDrainEqualsOneBulkRead :
    three.Inv ∧ three.ContractKept ∧ three.configured = true ∧ (3 : Cursor .default).toNat ≤ three.remainOut.toNat ∧
    (3 : Cursor .default).toNat ≤ three.usedC.toNat := by decide

theorem witness_CrossingsCopyTheWholeCursor :
    ({ core8 12 12 4 9 with inputs := [.crossR2P] } : Fifo .default).inputs = .crossR2P :: [] ∧
    (core8 12 12 4 9).r2pEnabled = true ∧
    ({ core8 12 12 4 9 with inputs := [.crossW2C] } : Fifo .default).inputs = .crossW2C :: [] ∧
    (core8 12 12 4 9).w2cEnabled = true := by decide

theorem witness_DisabledCrossingsHaveNoStep :
    ({ three with inputs := [.crossR2P] } : Fifo .default).inputs = .crossR2P :: [] ∧ three.r2pEnabled = false ∧
    ({ three with inputs := [.crossW2C] } : Fifo .default).inputs = .crossW2C :: [] ∧ three.w2cEnabled = false := by decide

/-! ### A fair endless run: both crossings step once, and from then on the consumer polls USED -/

/-- The schedule: X_W2C, X_R2P, then USED on C for ever. -/
def pollSchedule : Nat → AgentStep .default
  | 0 => .crossW2C
  | 1 => .crossR2P
  | _ + 2 => issue .default (.used .consumer)

/-- The states, from stale copies (VQ5): after both crossings every poll is answered 5. -/
def pollStates : Nat → Fifo .default
  | 0 => core8 8 3 0 5
  | 1 => core8 8 3 0 8
  | n + 2 => { core8 8 3 3 8 with respC := List.replicate n { status := .ok, value := 5 } }

theorem pollStates_endless : EndlessRun pollSchedule pollStates
  | 0 => rfl
  | 1 => rfl
  | n + 2 => by
    have spells : decode (encode .default (.used .consumer)).port (encode .default (.used .consumer)).word [] =
        .command (.used .consumer) := by decide
    refine (portStep_command (s := at32 (pollStates (n + 2))) spells).trans ?_
    have five : (pollStates (n + 2)).usedOn .consumer = 5 := by
      show usedOf (8 : Cursor .default) 3 = 5
      decide
    have grows := List.replicate_succ' (n := n) (a := ({ status := .ok, value := 5 } : Response .default))
    show Host.Outcome.next (at32 { core8 8 3 3 8 with
        respC := List.replicate n _ ++ [{ status := .ok, value := (pollStates (n + 2)).usedOn .consumer }] }) =
      .next (at32 { core8 8 3 3 8 with respC := List.replicate (n + 1) _ })
    rw [grows, five]

/-- Neither crossing stays enabled: after state 2 neither is enabled at all. -/
theorem pollStates_fair : WeaklyFair pollSchedule pollStates :=
  ⟨fun n enabled => absurd (enabled (n + 2) (by omega)) (by simp [pollStates, core8, Fifo.r2pEnabled]),
    fun n enabled => absurd (enabled (n + 2) (by omega)) (by simp [pollStates, core8, Fifo.w2cEnabled])⟩

theorem witness_FairRunsCopyEachCursorAgainAndAgain : FairRun pollSchedule pollStates := ⟨pollStates_endless, pollStates_fair⟩

/-- WC and RC stand still from the start, the core stays configured, and the first views are stale. -/
theorem witness_PollingIsAnsweredTheTruthInFairRuns :
    FairRun pollSchedule pollStates ∧ (∀ m, 0 ≤ m → (pollStates m).wc = (pollStates 0).wc) ∧
    (∀ m, 0 ≤ m → (pollStates m).rc = (pollStates 0).rc) ∧ (∀ m, (pollStates m).configured = true) ∧
    (pollStates 0).usedC ≠ (pollStates 0).usedTrue := by
  refine ⟨⟨pollStates_endless, pollStates_fair⟩, fun m _ => ?_, fun m _ => ?_, fun m => ?_, by decide⟩
  all_goals rcases m with _ | _ | m <;> rfl

/-- Two crossings, and then polls for ever. -/
theorem witness_CrossingsHaveNoEndlessRunOfTheirOwn :
    EndlessRun pollSchedule pollStates ∧ pollSchedule 0 = .crossW2C ∧ pollSchedule 1 = .crossR2P := ⟨pollStates_endless, rfl, rfl⟩

theorem witness_EveryPrefixOfAnEndlessRunIsARunOfTheMachine : EndlessRun pollSchedule pollStates := pollStates_endless

/-- A committed byte, and a free one. -/
theorem witness_ExternalWriteRecordsExactlyCommittedBytes :
    ({ three with inputs := [.extWrite 0x1001 0x55] } : Fifo .default).ConfigOk ∧
    ({ three with inputs := [.extWrite 0x1001 0x55] } : Fifo .default).inputs = .extWrite 0x1001 0x55 :: [] ∧
    ((9 : Cursor .default) - three.rc < three.wc - three.rc ∧ three.saddr 9 = 0x1001) ∧ three.committed 0x1003 = false := by decide

theorem witness_ExternalReadChangesNothing :
    ({ three with inputs := [.extRead 0x1002] } : Fifo .default).inputs = .extRead 0x1002 :: [] := by decide

theorem witness_SynchronisedViewsAgree : three.Synchronised := by decide

theorem witness_FlagOutputsFollowTheViews : three.configured = true ∧ off.configured = false := by decide

theorem witness_CommandsLeaveTheOtherSidesFlags :
    (∃ t : Fifo .default, exec (.writeOne 1) (at32 three) = .next (at32 t)) ∧ (Instr.writeOne 1).port = .p ∧
    (∃ t : Fifo .default, exec .readOne (at32 three) = .next (at32 t)) ∧
    Instr.readOne.port = .c := ⟨⟨_, rfl⟩, rfl, ⟨_, rfl⟩, rfl⟩

theorem witness_OnlyInitWritesTheConfiguration :
    ∃ t : Fifo .default, step (at32 { three with inputs := [.command .k 0x00003000000000100001 []] }) = .next (at32 t) ∧
      t.capacity ≠ three.capacity :=
  ⟨_, rfl, by decide⟩

/-- A write moves WC, a read RC, and the crossings the copies. -/
theorem witness_EachCursorHasItsOwnWriters :
    (∃ t : Fifo .default, step (at32 { three with inputs := [.command .p 0x80 []] }) = .next (at32 t) ∧ t.wc ≠ three.wc) ∧
    (∃ t : Fifo .default, step (at32 { three with inputs := [.command .c 0xC0 []] }) = .next (at32 t) ∧ t.rc ≠ three.rc) ∧
    (∃ t : Fifo .default, step (at32 { core8 9 3 0 5 with inputs := [.crossR2P] }) = .next (at32 t) ∧ t.rcSync ≠ 0) ∧
    (∃ t : Fifo .default, step (at32 { core8 9 3 0 5 with inputs := [.crossW2C] }) = .next (at32 t) ∧ t.wcSync ≠ 5) :=
  ⟨⟨_, rfl, by decide⟩, ⟨_, rfl, by decide⟩, ⟨_, rfl, by decide⟩, ⟨_, rfl, by decide⟩⟩

theorem witness_OnlyWritesChangeMemory :
    ∃ t : Fifo .default, step (at32 { three with inputs := [.extWrite 0x1000 0x55] }) = .next (at32 t) ∧
      t.memRead 0x1000 ≠ three.memRead 0x1000 :=
  ⟨_, rfl, by decide⟩

theorem witness_ModelFaultsAreSticky :
    ∃ t : Fifo .default, step (at32 { three with inputs := [.powerOn], faults := [.extWriteCommitted] }) = .next (at32 t) ∧
      ModelFault.extWriteCommitted ∈ ({ three with faults := [.extWriteCommitted] } : Fifo .default).faults := ⟨_, rfl, by decide⟩

/-- Two states that differ in the other side's cursors. -/
theorem witness_EachSideSeesOnlyItsOwnView :
    (∃ t : Fifo .default, exec .readOne (at32 (core8 9 3 3 5)) = .next (at32 t)) ∧
    (∃ t : Fifo .default, exec .readOne (at32 (core8 5 3 1 5)) = .next (at32 t)) ∧ Instr.readOne.port = .c ∧
    (∃ t : Fifo .default, exec (.writeOne 1) (at32 (core8 9 3 3 5)) = .next (at32 t)) ∧
    (∃ t : Fifo .default, exec (.writeOne 1) (at32 (core8 9 5 3 9)) = .next (at32 t)) ∧
    (Instr.writeOne 1).port = .p := ⟨⟨_, rfl⟩, ⟨_, rfl⟩, rfl, ⟨_, rfl⟩, ⟨_, rfl⟩, rfl⟩

theorem witness_EveryAddressFormedLiesInStorage : three.configured = true ∧ three.ConfigOk := by decide

theorem witness_ViewsAreOnTheSafeSide : (core8 9 5 3 7).Inv ∧ (core8 9 5 3 7).ContractKept := by decide

theorem witness_NoCommandOverwritesACommittedByte :
    three.Inv ∧ three.ContractKept ∧ three.configured = true ∧
    (∃ t : Fifo .default, exec (.writeBulk 1 [7]) (at32 three) = .next (at32 t)) ∧
    three.committed 0x1000 = true := ⟨by decide, by decide, by decide, ⟨_, rfl⟩, by decide⟩

/-- The three commands, each with an answer. -/
theorem witness_ConsumerCommandsReturnOnlyCommittedBytes :
    three.Inv ∧ three.ContractKept ∧ three.configured = true ∧
    (∃ t : Fifo .default, exec .readOne (at32 three) = .next (at32 t) ∧
      t.respC = three.respC ++ [{ status := .ok, value := 1, rdata := 0x41 }]) ∧
    (∃ t : Fifo .default, exec .peekOne (at32 three) = .next (at32 t) ∧
      t.respC = three.respC ++ [{ status := .ok, value := 1, rdata := 0x41 }]) ∧
    ∃ t : Fifo .default, exec (.readBulk 2) (at32 three) = .next (at32 t) ∧
      t.respC = three.respC ++ [{ status := .ok, value := 2, payload := [0x41, 0x42] }] :=
  ⟨by decide, by decide, by decide, ⟨_, rfl, rfl⟩, ⟨_, rfl, rfl⟩, ⟨_, rfl, rfl⟩⟩

theorem witness_StepKeepsTheInvariant : three.Inv ∧
    ∃ t : Fifo .default, step (at32 { three with inputs := [.command .c 0xC0 []] }) = .next (at32 t) :=
  ⟨by decide, _, rfl⟩

end Sys2Proof.Tests
end

section
/-! What every command leaves behind: one more response on its own port, and the rest of what the agents see as it was
(R12, R67, R123). -/

namespace Sys2Proof.Machine

variable {p : Params} {s t u : Fifo p} {port : Port}

/-- The two states agree on all that the agents outside the core see or still mean to do: the responses of the three ports, the
schedule and the bytes EXT_READ returned. Registers, FAULTS and memory may differ. -/
structure Fifo.SameTrace (s u : Fifo p) : Prop where
  respP : u.respP = s.respP
  respC : u.respC = s.respC
  respK : u.respK = s.respK
  inputs : u.inputs = s.inputs
  extReads : u.extReads = s.extReads

theorem Fifo.SameTrace.refl (s : Fifo p) : s.SameTrace s := ⟨rfl, rfl, rfl, rfl, rfl⟩

theorem Fifo.SameTrace.responses (same : s.SameTrace u) (q : Port) : u.responses q = s.responses q := by
  cases q with
  | p => exact same.respP
  | c => exact same.respC
  | k => exact same.respK

/-- The state `t` is `s` after some updates of registers, FAULTS and memory, ended by one response on `port`. -/
def Fifo.Answers (s : Fifo p) (port : Port) (t : Fifo p) : Prop :=
  ∃ u r, s.SameTrace u ∧ t = u.respond port r

/-- An answer is one more response on its port and leaves the other ports, the schedule and EXT's bytes alone. -/
theorem Fifo.Answers.appends_one (answered : s.Answers port t) :
    ∃ r, t.responses port = s.responses port ++ [r] ∧
      (∀ q, q ≠ port → t.responses q = s.responses q) ∧ t.inputs = s.inputs ∧ t.extReads = s.extReads := by
  obtain ⟨u, r, same, rfl⟩ := answered
  refine ⟨r, ?_, fun q other => ?_, ?_, ?_⟩
  · simp [same.responses]
  · simp [same.responses, other.symm]
  · simp [same.inputs]
  · simp [same.extReads]

theorem Fifo.SameTrace.answers_respond (same : s.SameTrace u) (port : Port) (r : Response p) :
    s.Answers port (u.respond port r) := ⟨u, r, same, rfl⟩

theorem Fifo.answers_respond (s : Fifo p) (port : Port) (r : Response p) : s.Answers port (s.respond port r) :=
  (Fifo.SameTrace.refl s).answers_respond port r

/-- Behind the gate of R88 a command answers in both cases. -/
theorem Fifo.Answers.whenConfigured (answered : s.Answers port t) : s.Answers port (s.whenConfigured port t) := by
  rcases Fifo.whenConfigured_cases (s := s) (done := t) (port := port) with ⟨_, runs⟩ | ⟨_, blocked⟩
  · rwa [runs]
  · rw [blocked]
    exact s.answers_respond port _

/-! ## The commands with more than one outcome -/

theorem Fifo.answers_init (s : Fifo p) (base : Addr p) (size : Cursor p) : s.Answers .k (s.init base size) := by
  unfold Fifo.init
  split
  · exact Fifo.SameTrace.answers_respond (by constructor <;> simp) _ _
  · exact Fifo.SameTrace.answers_respond (by constructor <;> simp) _ _

theorem Fifo.answers_writeOne (s : Fifo p) (byte : Byte) : s.Answers .p (s.writeOne byte) := by
  unfold Fifo.writeOne
  split
  · exact s.answers_respond _ _
  · exact Fifo.SameTrace.answers_respond (by constructor <;> simp) _ _

theorem Fifo.answers_readOne (s : Fifo p) : s.Answers .c s.readOne := by
  unfold Fifo.readOne
  split
  · exact s.answers_respond _ _
  · exact Fifo.SameTrace.answers_respond (by constructor <;> simp) _ _

theorem Fifo.answers_writeBytes (s : Fifo p) (k : Cursor p) (payload : List Byte) :
    s.Answers .p (s.writeBytes k payload) :=
  Fifo.SameTrace.answers_respond (by constructor <;> simp) _ _

theorem Fifo.answers_writeBulk (s : Fifo p) (n : Cursor p) (payload : List Byte) :
    s.Answers .p (s.writeBulk n payload) := by
  unfold Fifo.writeBulk
  split
  · exact s.answers_respond _ _
  · exact s.answers_writeBytes n payload

theorem Fifo.answers_readBulk (s : Fifo p) (n : Cursor p) : s.Answers .c (s.readBulk n) := by
  unfold Fifo.readBulk
  split
  · exact s.answers_respond _ _
  · exact Fifo.SameTrace.answers_respond (by constructor <;> simp) _ _

theorem Fifo.answers_answerQuery (s : Fifo p) (side : Side) (value : Cursor p) :
    s.Answers side.port (s.answerQuery side value) := (s.answers_respond side.port _).whenConfigured

/-! ## Every command -/

/-- A WRITE_BULK whose payload has the announced length runs. -/
theorem execWriteBulk_of_payloadFits {n : Nat} {payload : List Byte} (fits : payloadFits p n payload = true) :
    execWriteBulk n payload ⟨p, s⟩ = .next ⟨p, s.whenConfigured .p (s.writeBulk (p.cursor n) payload)⟩ := if_pos fits

/-- A WRITE_BULK_TRUNC whose payload has the announced length runs. -/
theorem execWriteBulkTrunc_of_payloadFits {n : Nat} {payload : List Byte} (fits : payloadFits p n payload = true) :
    execWriteBulkTrunc n payload ⟨p, s⟩ =
      .next ⟨p, s.whenConfigured .p (s.writeBytes (minOf (p.cursor n) s.freeP) payload)⟩ := if_pos fits

/-- A well-formed bulk write carries the announced payload (R73). -/
theorem payloadFits_of_wf {n : Nat} {payload : List Byte} (wf : (fitsArg p n && payloadFits p n payload) = true) :
    payloadFits p n payload = true := (Bool.and_eq_true_iff.mp wf).2

/-- Every well-formed command has a next state, and that state is an answer on the command's port (R12, R67, R123). Only the two
bulk writes need well-formedness: their payload must have the announced length (R73). -/
theorem exec_answers (s : Fifo p) {i : Instr} (wf : i.wf p = true) :
    ∃ t, exec i ⟨p, s⟩ = .next ⟨p, t⟩ ∧ s.Answers i.port t := by
  cases i with
  | init base size => exact ⟨_, rfl, s.answers_init _ _⟩
  | reset =>
    exact ⟨_, rfl, Fifo.Answers.whenConfigured (Fifo.SameTrace.answers_respond (by constructor <;> simp) _ _)⟩
  | size side => exact ⟨_, rfl, s.answers_answerQuery side _⟩
  | used side => exact ⟨_, rfl, s.answers_answerQuery side _⟩
  | free side => exact ⟨_, rfl, s.answers_answerQuery side _⟩
  | isFull side => exact ⟨_, rfl, s.answers_answerQuery side _⟩
  | isEmpty side => exact ⟨_, rfl, s.answers_answerQuery side _⟩
  | writeOne byte => exact ⟨_, rfl, (s.answers_writeOne byte).whenConfigured⟩
  | writeBulk n payload =>
    exact ⟨_, execWriteBulk_of_payloadFits (payloadFits_of_wf wf), (s.answers_writeBulk _ payload).whenConfigured⟩
  | writeBulkTrunc n payload =>
    exact ⟨_, execWriteBulkTrunc_of_payloadFits (payloadFits_of_wf wf), (s.answers_writeBytes _ payload).whenConfigured⟩
  | readOne => exact ⟨_, rfl, s.answers_readOne.whenConfigured⟩
  | peekOne => exact ⟨_, rfl, (s.answers_respond _ _).whenConfigured⟩
  | readBulk n => exact ⟨_, rfl, (s.answers_readBulk _).whenConfigured⟩
  | lwRemaining => exact ⟨_, rfl, (s.answers_respond _ _).whenConfigured⟩
  | lrRemaining => exact ⟨_, rfl, (s.answers_respond _ _).whenConfigured⟩
  | lwRegion | lwFinish n | lrRegion | lrFinish n =>
    exact ⟨_, rfl, Fifo.Answers.whenConfigured (Fifo.SameTrace.answers_respond (by constructor <;> simp) _ _)⟩

/-- Settles O14: each command ends in one response on its own port, after updates that no agent's trace shows. -/
theorem everyCommandAnswersItsPortOnce : Obligations.EveryCommandAnswersItsPortOnce := by
  intro p i s wf
  obtain ⟨t, runs, answered⟩ := exec_answers s wf
  obtain ⟨r, own, others, inputs, extReads⟩ := answered.appends_one
  exact ⟨t, r, runs, own, others, inputs, extReads⟩

end Sys2Proof.Machine
end

section
/-! What a command can leave behind, said once for all nineteen (R88, R96 to R115), and what one step of the machine can do
(R131). The statements about every step are read off these two lists. -/

namespace Sys2Proof.Machine

variable {p : Params} {s t u : Fifo p} {i : Instr}

/-! ## The commands -/

/-- The commands that store bytes at WC (R99, R103, R104). -/
inductive Stores : Instr → Prop
  | writeOne (byte : Byte) : Stores (.writeOne byte)
  | writeBulk (n : Nat) (payload : List Byte) : Stores (.writeBulk n payload)
  | writeBulkTrunc (n : Nat) (payload : List Byte) : Stores (.writeBulkTrunc n payload)

/-- The commands that take bytes at RC (R100, R106). -/
inductive Takes : Instr → Prop
  | readOne : Takes .readOne
  | readBulk (n : Nat) : Takes (.readBulk n)

theorem Stores.port (stores : Stores i) : i.port = .p := by cases stores <;> rfl

theorem Takes.port (takes : Takes i) : i.port = .c := by cases takes <;> rfl

/-- What a command can leave behind, up to the response it gives: how many bytes a transfer may move, which duties a commit
checks, and on which configurations INIT binds. -/
inductive Fifo.Effect (s : Fifo p) : Instr → Fifo p → Prop
  /-- Only the response: a query, a command blocked by the gate of R88 or by its own check, or one that only looks. -/
  | answer (i : Instr) (r : Response p) : Fifo.Effect s i (s.respond i.port r)
  /-- The producer's window is opened (R109). -/
  | openIn (r : Response p) : Fifo.Effect s .lwRegion ((s.setLwOpen true).respond .p r)
  /-- The consumer's window is opened (R112). -/
  | openOut (r : Response p) : Fifo.Effect s .lrRegion ((s.setLrOpen true).respond .c r)
  /-- `k` bytes are stored, no more than the producer sees free (R99, R103, R104). -/
  | store {i : Instr} (stores : Stores i) (k : Cursor p) (bytes : List Byte) (room : k ≤ s.freeP) (r : Response p) :
      Fifo.Effect s i (((s.copyIn s.wc bytes).setWc (s.wc + k)).respond .p r)
  /-- `k` bytes are taken, no more than the consumer sees used (R100, R106). -/
  | take {i : Instr} (takes : Takes i) (k : Cursor p) (there : k ≤ s.usedC) (r : Response p) :
      Fifo.Effect s i ((s.setRc (s.rc + k)).respond .c r)
  /-- The producer's window is committed, its duties recorded but not enforced (R111). -/
  | finishIn (n : Nat) (r : Response p) :
      Fifo.Effect s (.lwFinish n)
        ((((s.checkLwFinish (p.cursor n)).setWc (s.wc + p.cursor n)).setLwOpen false).respond .p r)
  /-- The consumer's window is committed, its duties recorded but not enforced (R114). -/
  | finishOut (n : Nat) (r : Response p) :
      Fifo.Effect s (.lrFinish n)
        ((((s.checkLrFinish (p.cursor n)).setRc (s.rc + p.cursor n)).setLrOpen false).respond .c r)
  /-- INIT binds the core on a legal configuration (R96). -/
  | bind (base size : Nat) (legal : legalConfig (p.addr base) (p.cursor size) = true) (r : Response p) :
      Fifo.Effect s (.init base size)
        ((((s.abandonWindows .initWithOpenWindow).bind (p.addr base) (p.cursor size)).zeroCursors.setConfigured
          true).respond .k r)
  /-- INIT leaves the core unconfigured on any other (R96). -/
  | unbind (base size : Nat) (r : Response p) :
      Fifo.Effect s (.init base size) (((s.abandonWindows .initWithOpenWindow).setConfigured false).respond .k r)
  /-- RESET (R115). -/
  | restart (r : Response p) :
      Fifo.Effect s .reset ((s.abandonWindows .resetWithOpenWindow).zeroCursors.respond .k r)

/-- Behind the gate of R88 a command does what it does, or only answers. -/
theorem Fifo.Effect.whenConfigured (did : s.Effect i u) : s.Effect i (s.whenConfigured i.port u) := by
  rcases Fifo.whenConfigured_cases (s := s) (done := u) (port := i.port) with ⟨_, runs⟩ | ⟨_, blocked⟩
  · rwa [runs]
  · rw [blocked]
    exact .answer i _

theorem Fifo.effect_init (s : Fifo p) (base size : Nat) :
    s.Effect (.init base size) (s.init (p.addr base) (p.cursor size)) := by
  unfold Fifo.init
  split_ifs with legal
  · exact .bind base size legal _
  · exact .unbind base size _

/-- The number 1 fits in a cursor (R8). -/
theorem Cursor.one_toNat : (1 : Cursor p).toNat = 1 :=
  Params.toNat_cursor (Nat.one_lt_two_pow (by have := p.two_le_cursorW; omega))

/-- A count that is not 0 is at least 1. -/
theorem Cursor.one_le {c : Cursor p} (some : c ≠ 0) : 1 ≤ c := by
  have positive : c.toNat ≠ 0 := fun none => some (BitVec.eq_of_toNat_eq none)
  rw [BitVec.le_def, Cursor.one_toNat]
  omega

theorem Fifo.effect_writeOne (s : Fifo p) (byte : Byte) : s.Effect (.writeOne byte) (s.writeOne byte) := by
  unfold Fifo.writeOne
  split_ifs with notFull
  · exact .answer (.writeOne byte) _
  · exact .store (.writeOne byte) 1 [byte] (Cursor.one_le (by simpa [Fifo.fullOn, Fifo.freeOn] using notFull)) _

theorem Fifo.effect_writeBulk (s : Fifo p) (n : Nat) (payload : List Byte) :
    s.Effect (.writeBulk n payload) (s.writeBulk (p.cursor n) payload) := by
  unfold Fifo.writeBulk
  split_ifs with tooMany
  · exact .answer (.writeBulk n payload) _
  · exact .store (.writeBulk n payload) _ _ (BitVec.not_lt.mp tooMany) _

theorem Fifo.effect_writeBulkTrunc (s : Fifo p) (n : Nat) (payload : List Byte) :
    s.Effect (.writeBulkTrunc n payload) (s.writeBytes (minOf (p.cursor n) s.freeP) payload) := by
  refine .store (.writeBulkTrunc n payload) _ _ ?_ _
  rw [BitVec.le_def, minOf_toNat]
  exact min_le_right _ _

theorem Fifo.effect_readOne (s : Fifo p) : s.Effect .readOne s.readOne := by
  unfold Fifo.readOne
  split_ifs with notEmpty
  · exact .answer .readOne _
  · exact .take .readOne 1 (Cursor.one_le (by simpa [Fifo.emptyOn, Fifo.usedOn] using notEmpty)) _

theorem Fifo.effect_readBulk (s : Fifo p) (n : Nat) : s.Effect (.readBulk n) (s.readBulk (p.cursor n)) := by
  unfold Fifo.readBulk
  split_ifs with tooMany
  · exact .answer (.readBulk n) _
  · exact .take (.readBulk n) _ (BitVec.not_lt.mp tooMany) _

/-- The next state is the one the command has written down. -/
theorem Fifo.Effect.of_next (did : s.Effect i u)
    (taken : State.next { params := p, fifo := s } u = .next { params := p, fifo := t }) : s.Effect i t := by
  cases taken
  exact did

/-- The only next state of a WRITE_BULK. -/
theorem execWriteBulk_eq_next {n : Nat} {payload : List Byte} {s t : State} (taken : execWriteBulk n payload s = .next t) :
    s.next (s.fifo.whenConfigured .p (s.fifo.writeBulk (s.params.cursor n) payload)) = .next t := by
  unfold execWriteBulk at taken
  split at taken
  · exact taken
  · cases taken

/-- The only next state of a WRITE_BULK_TRUNC. -/
theorem execWriteBulkTrunc_eq_next {n : Nat} {payload : List Byte} {s t : State}
    (taken : execWriteBulkTrunc n payload s = .next t) :
    s.next (s.fifo.whenConfigured .p (s.fifo.writeBytes (minOf (s.params.cursor n) s.fifo.freeP) payload)) = .next t := by
  unfold execWriteBulkTrunc at taken
  split at taken
  · exact taken
  · cases taken

/-- Every command that has a next state leaves one of the listed effects. -/
theorem exec_effect (taken : exec i ⟨p, s⟩ = .next ⟨p, t⟩) : s.Effect i t := by
  cases i with
  | init base size => exact (s.effect_init base size).of_next taken
  | reset => exact (Fifo.Effect.restart _).whenConfigured.of_next taken
  | size side | used side | free side | isFull side | isEmpty side =>
    exact (Fifo.Effect.answer _ _).whenConfigured.of_next taken
  | writeOne byte => exact (s.effect_writeOne byte).whenConfigured.of_next taken
  | writeBulk n payload => exact (s.effect_writeBulk n payload).whenConfigured.of_next (execWriteBulk_eq_next taken)
  | writeBulkTrunc n payload =>
    exact (s.effect_writeBulkTrunc n payload).whenConfigured.of_next (execWriteBulkTrunc_eq_next taken)
  | lwRegion => exact (Fifo.Effect.openIn _).whenConfigured.of_next taken
  | lwFinish n => exact (Fifo.Effect.finishIn n _).whenConfigured.of_next taken
  | readOne => exact s.effect_readOne.whenConfigured.of_next taken
  | lwRemaining | peekOne | lrRemaining => exact (Fifo.Effect.answer _ _).whenConfigured.of_next taken
  | readBulk n => exact (s.effect_readBulk n).whenConfigured.of_next taken
  | lrRegion => exact (Fifo.Effect.openOut _).whenConfigured.of_next taken
  | lrFinish n => exact (Fifo.Effect.finishOut n _).whenConfigured.of_next taken

/-! ## The machine's step -/

/-- What one step of the machine can do: run a command, answer ILLEGAL, take a crossing, an external access or a power-on event,
or, with no agent step left, an idle step. `rest` is the schedule left behind. -/
inductive Fifo.Taken (s : Fifo p) : Fifo p → Prop
  | command {i : Instr} {rest : List (AgentStep p)} {t : Fifo p} (runs : s.Runs i)
      (did : Fifo.Effect { s with inputs := rest } i t) : Fifo.Taken s t
  | illegal (rest : List (AgentStep p)) (port : Port) (r : Response p) :
      Fifo.Taken s (Fifo.respond { s with inputs := rest } port r)
  | crossR2P (rest : List (AgentStep p)) (due : s.due = [] ∨ s.due.head? = some .crossR2P) :
      Fifo.Taken s { s with inputs := rest, rcSync := s.rc }
  | crossW2C (rest : List (AgentStep p)) (due : s.due = [] ∨ s.due.head? = some .crossW2C) :
      Fifo.Taken s { s with inputs := rest, wcSync := s.wc }
  | extWrite (rest : List (AgentStep p)) (a : Addr p) (v : Byte) :
      Fifo.Taken s (Fifo.extWrite { s with inputs := rest } a v)
  | extRead (rest : List (AgentStep p)) (a : Addr p) : Fifo.Taken s (Fifo.extRead { s with inputs := rest } a)
  | powerOn (rest : List (AgentStep p)) (due : s.due.head? = some .powerOn) :
      Fifo.Taken s (Fifo.powerOn { s with inputs := rest })
  | ended (due : s.due = []) : Fifo.Taken s { s with inputs := [] }

/-- The idle step takes an enabled crossing, or nothing happens (log 4). -/
theorem Fifo.taken_idle (none : s.due = []) : s.Taken (Fifo.idle { s with inputs := [] }) := by
  unfold Fifo.idle
  split_ifs
  · exact .crossR2P [] (.inl none)
  · exact .crossW2C [] (.inl none)
  · exact .ended none

/-- A transaction that is taken runs its command or is answered ILLEGAL (R88). -/
theorem Fifo.taken_portStep {port : Port} {word : CmdWord p} {payload : List Byte} {rest : List (AgentStep p)}
    (next : s.due = .command port word payload :: rest)
    (taken : portStep ⟨p, { s with inputs := rest }⟩ port word payload = .next ⟨p, t⟩) : s.Taken t := by
  cases verdict : decode port word payload with
  | command i =>
    exact .command ⟨port, word, payload, rest, next, verdict⟩ (exec_effect ((portStep_command verdict).symm.trans taken))
  | illegal =>
    cases (portStep_illegal (s := ⟨p, { s with inputs := rest }⟩) verdict).symm.trans taken
    exact .illegal rest port _
  | refused => cases (portStep_refused (s := ⟨p, { s with inputs := rest }⟩) verdict).symm.trans taken

/-- Every step is one of the listed ones. -/
theorem step_taken (taken : step ⟨p, s⟩ = .next ⟨p, t⟩) : s.Taken t := by
  cases next : s.due with
  | nil =>
    rw [step_idle next] at taken
    cases taken
    exact Fifo.taken_idle next
  | cons move rest =>
    rw [step_cons next] at taken
    cases move with
    | command port word payload => exact Fifo.taken_portStep next taken
    | crossR2P =>
      obtain ⟨_, rfl⟩ := agentStep_crossR2P_iff.mp taken
      exact .crossR2P rest (.inr (by rw [next]; rfl))
    | crossW2C =>
      obtain ⟨_, rfl⟩ := agentStep_crossW2C_iff.mp taken
      exact .crossW2C rest (.inr (by rw [next]; rfl))
    | extWrite a v => cases taken; exact .extWrite rest a v
    | extRead a => cases taken; exact .extRead rest a
    | powerOn => cases taken; exact .powerOn rest (by rw [next]; rfl)

/-! ## The widths (R42) -/

theorem exec_keeps_params {s t : State} (taken : exec i s = .next t) : t.params = s.params := by
  cases i with
  | writeBulk n payload => exact State.params_of_next (execWriteBulk_eq_next taken)
  | writeBulkTrunc n payload => exact State.params_of_next (execWriteBulkTrunc_eq_next taken)
  | _ => exact State.params_of_next taken

theorem portStep_keeps_params {s t : State} {port : Port} {word : CmdWord s.params} {payload : List Byte}
    (taken : portStep s port word payload = .next t) : t.params = s.params := by
  unfold portStep at taken
  split at taken
  · exact exec_keeps_params taken
  · exact State.params_of_next taken
  · cases taken

theorem crossingStep_keeps_params {s t : State} {enabled : Bool} {done : Fifo s.params}
    (taken : crossingStep s enabled done = .next t) : t.params = s.params := by
  unfold crossingStep at taken
  split at taken
  · exact State.params_of_next taken
  · cases taken

theorem agentStep_keeps_params {s t : State} {move : AgentStep s.params} (taken : agentStep s move = .next t) :
    t.params = s.params := by
  cases move with
  | command port word payload => exact portStep_keeps_params taken
  | crossR2P | crossW2C => exact crossingStep_keeps_params taken
  | extWrite a v | extRead a | powerOn => exact State.params_of_next taken

/-- Settles O4: every outcome that is a next state is built at the widths of the state before. -/
theorem noStepChangesTheWidths : Obligations.NoStepChangesTheWidths := by
  intro s t taken
  unfold step at taken
  split at taken
  · exact State.params_of_next taken
  · exact (agentStep_keeps_params taken :)

end Sys2Proof.Machine
end

section
/-! Who writes what: the configuration registers (R21, R22), the cursors (R26 to R29), FAULTS (R38) and the outputs (R35). Each is
read off the effects of a command and then off what a step can do. -/

namespace Sys2Proof.Machine

variable {p : Params} {s t : Fifo p} {i : Instr}

/-! ## The configuration registers -/

/-- The configuration registers of the two states are the same. -/
structure Fifo.SameConfig (s t : Fifo p) : Prop where
  configured : t.configured = s.configured
  poolBase : t.poolBase = s.poolBase
  capacity : t.capacity = s.capacity
  mask : t.mask = s.mask

/-- Every command but INIT leaves the configuration alone. -/
theorem Fifo.Effect.sameConfig_or_init (did : s.Effect i t) : s.SameConfig t ∨ ∃ base size, i = .init base size := by
  cases did with
  | bind base size | unbind base size => exact .inr ⟨base, size, rfl⟩
  | _ => exact .inl (by constructor <;> simp)

/-- Every step but INIT and power-on reset leaves the configuration alone. -/
theorem Fifo.Taken.sameConfig_or (taken : s.Taken t) :
    s.SameConfig t ∨ s.due.head? = some .powerOn ∨ ∃ base size, s.Runs (.init base size) := by
  cases taken with
  | command runs did =>
    rcases did.sameConfig_or_init with ⟨configured, poolBase, capacity, mask⟩ | ⟨base, size, rfl⟩
    · exact .inl ⟨configured, poolBase, capacity, mask⟩
    · exact .inr (.inr ⟨base, size, runs⟩)
  | powerOn rest due => exact .inr (.inl due)
  | extWrite rest a v => exact .inl (by rw [Fifo.extWrite_eq]; constructor <;> rfl)
  | illegal | crossR2P | crossW2C | extRead | ended => exact .inl (by constructor <;> simp [Fifo.extRead])

/-- Settles O51: only INIT and power-on reset have an effect on the configuration registers. -/
theorem onlyInitWritesTheConfiguration : Obligations.OnlyInitWritesTheConfiguration := by
  intro p s t taken changed
  refine (step_taken taken).sameConfig_or.resolve_left fun same => ?_
  simp [same.configured, same.poolBase, same.capacity, same.mask] at changed

/-! ## The cursors -/

/-- WC is moved by a store, a committed window, INIT and RESET (R26). -/
theorem Fifo.Effect.wc_writer (did : s.Effect i t) (moved : t.wc ≠ s.wc) :
    i = .reset ∨ (∃ base size, i = .init base size) ∨ Stores i ∨ ∃ n, i = .lwFinish n := by
  cases did with
  | restart => exact .inl rfl
  | bind base size => exact .inr (.inl ⟨base, size, rfl⟩)
  | store stores => exact .inr (.inr (.inl stores))
  | finishIn n => exact .inr (.inr (.inr ⟨n, rfl⟩))
  | _ => simp at moved

/-- RC is moved by a take, a committed window, INIT and RESET (R27). -/
theorem Fifo.Effect.rc_writer (did : s.Effect i t) (moved : t.rc ≠ s.rc) :
    i = .reset ∨ (∃ base size, i = .init base size) ∨ Takes i ∨ ∃ n, i = .lrFinish n := by
  cases did with
  | restart => exact .inl rfl
  | bind base size => exact .inr (.inl ⟨base, size, rfl⟩)
  | take takes => exact .inr (.inr (.inl takes))
  | finishOut n => exact .inr (.inr (.inr ⟨n, rfl⟩))
  | _ => simp at moved

/-- Of the commands only INIT and RESET write the two copies (R28, R29). -/
theorem Fifo.Effect.sync_writer (did : s.Effect i t) :
    (t.rcSync = s.rcSync ∧ t.wcSync = s.wcSync) ∨ i = .reset ∨ ∃ base size, i = .init base size := by
  cases did with
  | restart => exact .inr (.inl rfl)
  | bind base size => exact .inr (.inr ⟨base, size, rfl⟩)
  | _ => exact .inl (by simp)

/-- A step that moves WC is a power-on event or runs a command that moves it. -/
theorem Fifo.Taken.wc_writer (taken : s.Taken t) (moved : t.wc ≠ s.wc) :
    s.due.head? = some .powerOn ∨
      ∃ i, s.Runs i ∧ (i = .reset ∨ (∃ base size, i = .init base size) ∨ Stores i ∨ ∃ n, i = .lwFinish n) := by
  cases taken with
  | command runs did => exact .inr ⟨_, runs, did.wc_writer moved⟩
  | powerOn rest due => exact .inl due
  | illegal | crossR2P | crossW2C | extWrite | extRead | ended => simp [Fifo.extWrite, Fifo.extRead] at moved

/-- A step that moves RC is a power-on event or runs a command that moves it. -/
theorem Fifo.Taken.rc_writer (taken : s.Taken t) (moved : t.rc ≠ s.rc) :
    s.due.head? = some .powerOn ∨
      ∃ i, s.Runs i ∧ (i = .reset ∨ (∃ base size, i = .init base size) ∨ Takes i ∨ ∃ n, i = .lrFinish n) := by
  cases taken with
  | command runs did => exact .inr ⟨_, runs, did.rc_writer moved⟩
  | powerOn rest due => exact .inl due
  | illegal | crossR2P | crossW2C | extWrite | extRead | ended => simp [Fifo.extWrite, Fifo.extRead] at moved

/-- A step that writes a copy is its crossing, taken from the schedule or idle, a power-on event, RESET or INIT. -/
theorem Fifo.Taken.sync_writer (taken : s.Taken t) :
    (t.rcSync ≠ s.rcSync →
      s.due = [] ∨ s.due.head? = some .crossR2P ∨ s.due.head? = some .powerOn ∨ s.Runs .reset ∨
        ∃ base size, s.Runs (.init base size)) ∧
    (t.wcSync ≠ s.wcSync →
      s.due = [] ∨ s.due.head? = some .crossW2C ∨ s.due.head? = some .powerOn ∨ s.Runs .reset ∨
        ∃ base size, s.Runs (.init base size)) := by
  cases taken with
  | command runs did =>
    rcases did.sync_writer with ⟨rcSync, wcSync⟩ | rfl | ⟨base, size, rfl⟩
    · exact ⟨absurd rcSync, absurd wcSync⟩
    · exact ⟨fun _ => .inr (.inr (.inr (.inl runs))), fun _ => .inr (.inr (.inr (.inl runs)))⟩
    · exact ⟨fun _ => .inr (.inr (.inr (.inr ⟨_, _, runs⟩))), fun _ => .inr (.inr (.inr (.inr ⟨_, _, runs⟩)))⟩
  | powerOn rest due => exact ⟨fun _ => .inr (.inr (.inl due)), fun _ => .inr (.inr (.inl due))⟩
  | crossR2P rest due => exact ⟨fun _ => due.imp_right .inl, absurd rfl⟩
  | crossW2C rest due => exact ⟨absurd rfl, fun _ => due.imp_right .inl⟩
  | illegal | extWrite | extRead | ended => simp [Fifo.extWrite, Fifo.extRead]

/-- Settles O52: the writers of each cursor, with the storing and taking commands named. -/
theorem eachCursorHasItsOwnWriters : Obligations.EachCursorHasItsOwnWriters := by
  intro p s t stepped
  have taken := step_taken stepped
  refine ⟨fun moved => ?_, fun moved => ?_, taken.sync_writer⟩
  · refine (taken.wc_writer moved).imp_right ?_
    rintro ⟨i, runs, rfl | ⟨base, size, rfl⟩ | stores | ⟨n, rfl⟩⟩
    · exact .inl runs
    · exact .inr (.inl ⟨base, size, runs⟩)
    · cases stores with
      | writeOne byte => exact .inr (.inr (.inl ⟨byte, runs⟩))
      | writeBulk n payload => exact .inr (.inr (.inr (.inl ⟨n, payload, runs⟩)))
      | writeBulkTrunc n payload => exact .inr (.inr (.inr (.inr (.inl ⟨n, payload, runs⟩))))
    · exact .inr (.inr (.inr (.inr (.inr ⟨n, runs⟩))))
  · refine (taken.rc_writer moved).imp_right ?_
    rintro ⟨i, runs, rfl | ⟨base, size, rfl⟩ | takes | ⟨n, rfl⟩⟩
    · exact .inl runs
    · exact .inr (.inl ⟨base, size, runs⟩)
    · cases takes with
      | readOne => exact .inr (.inr (.inl runs))
      | readBulk n => exact .inr (.inr (.inr (.inl ⟨n, runs⟩)))
    · exact .inr (.inr (.inr (.inr ⟨n, runs⟩)))

/-! ## FAULTS -/

/-- No command removes a model fault. -/
theorem Fifo.Effect.faults_subset (did : s.Effect i t) : s.faults ⊆ t.faults := by
  intro k there
  cases did with
  | finishIn n => simpa using (s.mem_checkLwFinish_faults (p.cursor n) k).mpr (.inl there)
  | finishOut n => simpa using (s.mem_checkLrFinish_faults (p.cursor n) k).mpr (.inl there)
  | bind | unbind => simpa using (s.mem_abandonWindows_faults .initWithOpenWindow k).mpr (.inl there)
  | restart => simpa using (s.mem_abandonWindows_faults .resetWithOpenWindow k).mpr (.inl there)
  | _ => simpa using there

/-- No step removes a model fault. -/
theorem Fifo.Taken.faults_subset (taken : s.Taken t) : s.faults ⊆ t.faults := by
  cases taken with
  | command runs did => exact did.faults_subset
  | extWrite rest a v =>
    intro k there
    rw [Fifo.extWrite_eq]
    split_ifs
    · exact (FaultSet.mem_add _ _ _).mpr (.inr there)
    · exact there
  | illegal => simp
  | crossR2P | crossW2C | extRead | powerOn | ended => exact List.Subset.refl _

/-- Settles O54: FAULTS after a step holds FAULTS before it. -/
theorem modelFaultsAreSticky : Obligations.ModelFaultsAreSticky :=
  fun _ _ _ _ taken there => (step_taken taken).faults_subset there

/-! ## The outputs -/

/-- The consumer's outputs are computed from CONFIGURED, CAPACITY, RC and WC_SYNC (R33, R34). -/
theorem Fifo.flags_consumer_congr (same : s.SameConfig t) (rc : t.rc = s.rc) (wcSync : t.wcSync = s.wcSync) :
    t.flags .consumer = s.flags .consumer := by
  simp [Fifo.flags, Fifo.fullOn, Fifo.emptyOn, Fifo.usedOn, Fifo.freeOn, Fifo.usedC, Fifo.freeC, same.configured, same.capacity,
    rc, wcSync]

/-- The producer's outputs are computed from CONFIGURED, CAPACITY, WC and RC_SYNC (R33, R34). -/
theorem Fifo.flags_producer_congr (same : s.SameConfig t) (wc : t.wc = s.wc) (rcSync : t.rcSync = s.rcSync) :
    t.flags .producer = s.flags .producer := by
  simp [Fifo.flags, Fifo.fullOn, Fifo.emptyOn, Fifo.usedOn, Fifo.freeOn, Fifo.usedP, Fifo.freeP, same.configured, same.capacity,
    wc, rcSync]

/-- A command of either side leaves the configuration and both copies alone, since INIT and RESET are on port K. -/
theorem Fifo.Effect.frame_of_side (did : s.Effect i t) (side : i.port ≠ .k) :
    s.SameConfig t ∧ t.rcSync = s.rcSync ∧ t.wcSync = s.wcSync := by
  constructor
  · refine did.sameConfig_or_init.resolve_right ?_
    rintro ⟨base, size, rfl⟩
    exact side rfl
  · refine did.sync_writer.resolve_right ?_
    rintro (rfl | ⟨base, size, rfl⟩) <;> exact side rfl

/-- A producer's command leaves RC alone. -/
theorem Fifo.Effect.rc_of_producer (did : s.Effect i t) (producer : i.port = .p) : t.rc = s.rc := by
  by_contra moved
  rcases did.rc_writer moved with rfl | ⟨_, _, rfl⟩ | takes | ⟨_, rfl⟩
  · cases producer
  · cases producer
  · cases takes.port.symm.trans producer
  · cases producer

/-- A consumer's command leaves WC alone. -/
theorem Fifo.Effect.wc_of_consumer (did : s.Effect i t) (consumer : i.port = .c) : t.wc = s.wc := by
  by_contra moved
  rcases did.wc_writer moved with rfl | ⟨_, _, rfl⟩ | stores | ⟨_, rfl⟩
  · cases consumer
  · cases consumer
  · cases stores.port.symm.trans consumer
  · cases consumer

/-- Settles O50: a side's command leaves alone every register the other side's outputs are computed from. -/
theorem commandsLeaveTheOtherSidesFlags : Obligations.CommandsLeaveTheOtherSidesFlags := by
  intro p i s t taken
  have did := exec_effect taken
  constructor
  · intro producer
    obtain ⟨config, _, wcSync⟩ := did.frame_of_side (by simp [producer])
    exact Fifo.flags_consumer_congr config (did.rc_of_producer producer) wcSync
  · intro consumer
    obtain ⟨config, rcSync, _⟩ := did.frame_of_side (by simp [consumer])
    exact Fifo.flags_producer_congr config (did.wc_of_consumer consumer) rcSync

/-- Settles O49: the outputs are the raw differences of each view, and used and free add up to CAPACITY. -/
theorem flagOutputsFollowTheViews : Obligations.FlagOutputsFollowTheViews := by
  intro p s
  constructor
  · intro on
    refine ⟨?_, ?_, fun side => ?_⟩
    · simp only [Fifo.flags, if_pos on]
      rfl
    · simp only [Fifo.flags, if_pos on]
      rfl
    · cases side <;> simp [Fifo.flags, on, Fifo.usedOn, Fifo.freeOn, Fifo.freeP, Fifo.freeC, Fifo.usedP, Fifo.usedC, freeOf]
  · intro off side
    simp [Fifo.flags, off]

end Sys2Proof.Machine
end

section
/-! The invariant of every reachable state (R23, R31, R32, R38, R41): what the view invariant says about each side's numbers, and
that every step keeps it. -/

namespace Sys2Proof.Machine

variable {p : Params} {s t : Fifo p} {i : Instr} {k : Cursor p}

/-! ## The views as sums of the gaps between the cursors (R32) -/

/-- Two neighbouring gaps that fit in a cursor together are, as numbers, the gap between the outer cursors. -/
theorem Cursor.sub_toNat_of_between (high middle low : Cursor p)
    (fits : (middle - low).toNat + (high - middle).toNat < 2 ^ p.cursorW) :
    (high - low).toNat = (middle - low).toNat + (high - middle).toNat := by
  rw [← BitVec.toNat_add_of_lt fits]
  congr 1
  ring

/-- A gap grows by what its upper cursor advances, as long as it fits in a cursor. -/
theorem Cursor.add_sub_toNat (high k low : Cursor p) (fits : (high - low).toNat + k.toNat < 2 ^ p.cursorW) :
    (high + k - low).toNat = (high - low).toNat + k.toNat := by
  rw [← BitVec.toNat_add_of_lt fits]
  congr 1
  ring

/-- The gaps of the view invariant fit in a cursor. -/
theorem Fifo.ViewOk.fits (view : s.ViewOk) :
    (s.rc - s.rcSync).toNat + (s.wcSync - s.rc).toNat + (s.wc - s.wcSync).toNat < 2 ^ p.cursorW :=
  lt_of_le_of_lt view s.capacity.isLt

/-- What is really stored: what the consumer sees and what has not crossed to it yet. -/
theorem Fifo.ViewOk.usedTrue_toNat (view : s.ViewOk) :
    s.usedTrue.toNat = s.usedC.toNat + (s.wc - s.wcSync).toNat :=
  Cursor.sub_toNat_of_between _ _ _ (by have := view.fits; omega)

/-- What the producer sees: what is really stored and what it does not know to be taken yet. -/
theorem Fifo.ViewOk.usedP_toNat (view : s.ViewOk) :
    s.usedP.toNat = (s.rc - s.rcSync).toNat + s.usedTrue.toNat := by
  refine Cursor.sub_toNat_of_between s.wc s.rc s.rcSync ?_
  have := view.fits
  have := view.usedTrue_toNat
  simp only [Fifo.usedTrue, Fifo.usedC, usedOf] at this
  omega

/-- The three gaps together are what the producer sees. -/
theorem Fifo.ViewOk.usedP_le (view : s.ViewOk) : s.usedP.toNat ≤ s.capacity.toNat := by
  rw [view.usedP_toNat, view.usedTrue_toNat]
  simp only [Fifo.usedC, usedOf]
  omega

/-- The producer sees CAPACITY less what it sees used, without a wrap. -/
theorem Fifo.ViewOk.freeP_toNat (view : s.ViewOk) : s.freeP.toNat = s.capacity.toNat - s.usedP.toNat :=
  BitVec.toNat_sub_of_le (BitVec.le_def.mpr view.usedP_le)

/-- Settles O57: the views differ from the truth by the gaps the crossings have still to carry. -/
theorem viewsAreOnTheSafeSide : Obligations.ViewsAreOnTheSafeSide := by
  intro p s inv kept
  obtain ⟨_, _, whileKept⟩ := inv
  have view := whileKept kept
  have := view.usedTrue_toNat
  have := view.usedP_toNat
  have := view.freeP_toNat
  exact ⟨by omega, by omega, view.usedP_le, by omega⟩

/-! ## What keeps the view invariant -/

/-- The four cursors and CAPACITY of the two states are the same. -/
structure Fifo.SameViews (s t : Fifo p) : Prop where
  wc : t.wc = s.wc
  rc : t.rc = s.rc
  rcSync : t.rcSync = s.rcSync
  wcSync : t.wcSync = s.wcSync
  capacity : t.capacity = s.capacity

/-- The view invariant is about the cursors and CAPACITY alone. -/
theorem Fifo.SameViews.viewOk (same : s.SameViews t) (view : s.ViewOk) : t.ViewOk := by
  unfold Fifo.ViewOk
  rwa [same.wc, same.rc, same.rcSync, same.wcSync, same.capacity]

/-- With every cursor 0 every gap is 0. -/
theorem Fifo.viewOk_of_zero (wc : t.wc = 0) (rc : t.rc = 0) (rcSync : t.rcSync = 0) (wcSync : t.wcSync = 0) : t.ViewOk := by
  simp [Fifo.ViewOk, wc, rc, rcSync, wcSync]

/-- WC may advance by as much as the producer sees free. -/
theorem Fifo.ViewOk.advance_wc (view : s.ViewOk) (room : k ≤ s.freeP) : (s.setWc (s.wc + k)).ViewOk := by
  have small := BitVec.le_def.mp room
  have seen := view.usedP_toNat
  have stored := view.usedTrue_toNat
  have bounded := view.usedP_le
  have := s.capacity.isLt
  rw [view.freeP_toNat] at small
  have gap := Cursor.add_sub_toNat s.wc k s.wcSync (by omega)
  simp only [Fifo.usedC, usedOf] at stored
  simp only [Fifo.ViewOk, Fifo.setWc_wc, Fifo.setWc_rc, Fifo.setWc_rcSync, Fifo.setWc_wcSync, Fifo.setWc_capacity, gap]
  omega

/-- RC may advance by as much as the consumer sees used. -/
theorem Fifo.ViewOk.advance_rc (view : s.ViewOk) (there : k ≤ s.usedC) : (s.setRc (s.rc + k)).ViewOk := by
  have small := BitVec.le_def.mp there
  have fits := view.fits
  have behind : (s.wcSync - (s.rc + k)).toNat = (s.wcSync - s.rc).toNat - k.toNat := by
    have same : s.wcSync - (s.rc + k) = s.wcSync - s.rc - k := by ring
    rw [same]
    exact BitVec.toNat_sub_of_le there
  simp only [Fifo.usedC, usedOf] at small
  have ahead := Cursor.add_sub_toNat s.rc k s.rcSync (by omega)
  simp only [Fifo.ViewOk, Fifo.setRc_wc, Fifo.setRc_rc, Fifo.setRc_rcSync, Fifo.setRc_wcSync, Fifo.setRc_capacity, behind, ahead]
  omega

/-- X_R2P closes the gap behind RC. -/
theorem Fifo.ViewOk.crossR2P (view : s.ViewOk) : s.crossR2P.ViewOk := by
  simp only [Fifo.ViewOk, Fifo.crossR2P, Fifo.setRcSync_wc, Fifo.setRcSync_rc, Fifo.setRcSync_rcSync, Fifo.setRcSync_wcSync,
    Fifo.setRcSync_capacity, BitVec.sub_self, BitVec.toNat_ofNat, Nat.zero_mod] at view ⊢
  omega

/-- X_W2C joins the gap before WC to what the consumer sees. -/
theorem Fifo.ViewOk.crossW2C (view : s.ViewOk) : s.crossW2C.ViewOk := by
  have stored := view.usedTrue_toNat
  simp only [Fifo.usedTrue, Fifo.usedC, usedOf] at stored
  simp only [Fifo.ViewOk, Fifo.crossW2C, Fifo.setWcSync_wc, Fifo.setWcSync_rc, Fifo.setWcSync_rcSync, Fifo.setWcSync_wcSync,
    Fifo.setWcSync_capacity, BitVec.sub_self, BitVec.toNat_ofNat, Nat.zero_mod] at view ⊢
  omega

/-! ## The commands -/

theorem Fifo.abandonWindows_faults_wf (canonical : FaultSet.wf s.faults) (kind : ModelFault) :
    FaultSet.wf (s.abandonWindows kind).faults := Fifo.raiseIf_faults_wf canonical _ _

theorem Fifo.checkLwFinish_faults_wf (canonical : FaultSet.wf s.faults) (n : Cursor p) : FaultSet.wf (s.checkLwFinish n).faults :=
  Fifo.raiseIf_faults_wf (Fifo.raiseIf_faults_wf canonical _ _) _ _

theorem Fifo.checkLrFinish_faults_wf (canonical : FaultSet.wf s.faults) (n : Cursor p) : FaultSet.wf (s.checkLrFinish n).faults :=
  Fifo.raiseIf_faults_wf (Fifo.raiseIf_faults_wf canonical _ _) _ _

/-- A commit that records no fault keeps within what the producer sees free. -/
theorem Fifo.le_freeP_of_checkLwFinish (kept : (s.checkLwFinish k).faults = []) : k ≤ s.freeP := by
  by_contra beyond
  have recorded := (s.mem_checkLwFinish_faults k .lwFinishBeyondFree).mpr (.inr (.inr ⟨rfl, BitVec.not_le.mp beyond⟩))
  simp [kept] at recorded

/-- A commit that records no fault keeps within what the consumer sees used. -/
theorem Fifo.le_usedC_of_checkLrFinish (kept : (s.checkLrFinish k).faults = []) : k ≤ s.usedC := by
  by_contra beyond
  have recorded := (s.mem_checkLrFinish_faults k .lrFinishBeyondUsed).mpr (.inr (.inr ⟨rfl, BitVec.not_le.mp beyond⟩))
  simp [kept] at recorded

theorem Fifo.Effect.canonical (did : s.Effect i t) (canonical : s.Canonical) : t.Canonical := by
  obtain ⟨memory, faults⟩ := canonical
  cases did with
  | store stores k bytes => exact ⟨by simpa using Fifo.copyIn_wf memory s.wc bytes, by simpa using faults⟩
  | finishIn n => exact ⟨by simpa using memory, by simpa using Fifo.checkLwFinish_faults_wf faults (p.cursor n)⟩
  | finishOut n => exact ⟨by simpa using memory, by simpa using Fifo.checkLrFinish_faults_wf faults (p.cursor n)⟩
  | bind | unbind =>
    exact ⟨by simpa using memory, by simpa using Fifo.abandonWindows_faults_wf faults .initWithOpenWindow⟩
  | restart => exact ⟨by simpa using memory, by simpa using Fifo.abandonWindows_faults_wf faults .resetWithOpenWindow⟩
  | answer | openIn | openOut | take => exact ⟨by simpa using memory, by simpa using faults⟩

/-- The configuration stays legal while nothing writes it. -/
theorem Fifo.SameConfig.configOk (same : s.SameConfig t) (config : s.ConfigOk) : t.ConfigOk := by
  unfold Fifo.ConfigOk
  rwa [same.configured, same.poolBase, same.capacity, same.mask]

theorem Fifo.Effect.configOk (did : s.Effect i t) (config : s.ConfigOk) : t.ConfigOk := by
  rcases did.sameConfig_or_init with same | ⟨base, size, rfl⟩
  · exact same.configOk config
  · cases did with
    | answer => exact Fifo.SameConfig.configOk (by constructor <;> simp) config
    | bind base size legal => simpa using legal
    | unbind => simp
    | store stores => cases stores
    | take takes => cases takes

/-- A command keeps the view invariant unless it records a model fault. -/
theorem Fifo.Effect.viewOk (did : s.Effect i t) (kept : t.ContractKept) (view : s.ViewOk) : t.ViewOk := by
  cases did with
  | store stores k bytes room => exact Fifo.SameViews.viewOk (by constructor <;> simp) (view.advance_wc room)
  | take takes k there => exact Fifo.SameViews.viewOk (by constructor <;> simp) (view.advance_rc there)
  | finishIn n =>
    have room := s.le_freeP_of_checkLwFinish (k := p.cursor n) (by simpa [Fifo.ContractKept] using kept)
    exact Fifo.SameViews.viewOk (by constructor <;> simp) (view.advance_wc room)
  | finishOut n =>
    have there := s.le_usedC_of_checkLrFinish (k := p.cursor n) (by simpa [Fifo.ContractKept] using kept)
    exact Fifo.SameViews.viewOk (by constructor <;> simp) (view.advance_rc there)
  | bind | restart => exact Fifo.viewOk_of_zero (by simp) (by simp) (by simp) (by simp)
  | answer | openIn | openOut | unbind => exact Fifo.SameViews.viewOk (by constructor <;> simp) view

/-- A state with no model fault comes from one with none. -/
theorem Fifo.contractKept_of_faults_subset (sticky : s.faults ⊆ t.faults) (kept : t.ContractKept) : s.ContractKept :=
  List.subset_nil.mp (kept ▸ sticky)

theorem Fifo.Effect.inv (did : s.Effect i t) (inv : s.Inv) : t.Inv := by
  obtain ⟨canonical, config, view⟩ := inv
  exact ⟨did.canonical canonical, did.configOk config, fun kept =>
    did.viewOk kept (view (Fifo.contractKept_of_faults_subset did.faults_subset kept))⟩

/-! ## The machine's step -/

/-- The invariant does not speak of the responses. -/
theorem Fifo.inv_respond (inv : s.Inv) (port : Port) (r : Response p) : (s.respond port r).Inv := by
  cases port <;> exact inv

theorem Fifo.inv_extWrite (inv : s.Inv) (a : Addr p) (v : Byte) : (s.extWrite a v).Inv := by
  obtain ⟨⟨memory, faults⟩, config, view⟩ := inv
  have sameFaults := Fifo.raiseIf_faults_wf (s := s.memWrite a v) faults (s.configured && s.committed a) .extWriteCommitted
  refine ⟨⟨by simpa [Fifo.extWrite] using Fifo.memWrite_wf memory a v, sameFaults⟩, ?_, fun kept => ?_⟩
  · exact Fifo.SameConfig.configOk (by constructor <;> simp [Fifo.extWrite]) config
  · obtain ⟨_, before⟩ := (Fifo.raiseIf_faults_eq_nil _ _ _).mp kept
    exact Fifo.SameViews.viewOk (by constructor <;> simp [Fifo.extWrite]) (view before)

theorem Fifo.inv_powerOn (inv : s.Inv) : s.powerOn.Inv := by
  obtain ⟨canonical, _, _⟩ := inv
  exact ⟨canonical, by simp, fun _ => Fifo.viewOk_of_zero rfl rfl rfl rfl⟩

theorem Fifo.Taken.inv (taken : s.Taken t) (inv : s.Inv) : t.Inv := by
  cases taken with
  | command runs did => exact did.inv inv
  | illegal rest port r => exact Fifo.inv_respond (s := { s with inputs := rest }) inv port r
  | crossR2P rest =>
    obtain ⟨canonical, config, view⟩ := inv
    exact ⟨canonical, config, fun kept => (view kept).crossR2P⟩
  | crossW2C rest =>
    obtain ⟨canonical, config, view⟩ := inv
    exact ⟨canonical, config, fun kept => (view kept).crossW2C⟩
  | extWrite rest a v => exact Fifo.inv_extWrite (s := { s with inputs := rest }) inv a v
  | extRead | ended => exact inv
  | powerOn rest => exact Fifo.inv_powerOn (s := { s with inputs := rest }) inv

/-- Settles O60: each step keeps the invariant, by the cases of what a step can do. -/
theorem stepKeepsTheInvariant : Obligations.StepKeepsTheInvariant := by
  rintro ⟨p, s⟩ ⟨q, t⟩ inv taken
  obtain rfl : q = p := noStepChangesTheWidths _ _ taken
  exact (step_taken taken).inv inv

/-- At power-on nothing is written, recorded or configured, and every gap is 0. -/
theorem Fifo.inv_reset (p : Params) : (Fifo.reset p).Inv :=
  ⟨⟨Memory.reset_wf p, List.Pairwise.nil⟩, by simp [Fifo.reset], fun _ => Fifo.viewOk_of_zero rfl rfl rfl rfl⟩

/-- Settles O2: State.reset is the power-on state at the default widths. -/
theorem powerOnMeetsTheInvariant : Obligations.PowerOnMeetsTheInvariant := ⟨Fifo.inv_reset .default, Fifo.inv_reset⟩

/-- Settles O1: each register of the power-on state is the value R43 gives, and an unconfigured core shows the forced outputs. -/
theorem powerOnLeavesEveryRegisterZero : Obligations.PowerOnLeavesEveryRegisterZero := by
  refine ⟨rfl, ?_⟩
  rintro p s rfl
  exact ⟨rfl, rfl, rfl, rfl, rfl, rfl, rfl, rfl, rfl, rfl, rfl, fun _ => rfl⟩

end Sys2Proof.Machine
end

section
/-! The addresses the core forms (R23, R41, R48): on a legal configuration an offset is a remainder, and an address is a place in
the storage region. -/

namespace Sys2Proof.Machine

variable {p : Params} {s : Fifo p} {base : Addr p} {size : Cursor p}

/-- A size that is not 0 has a predecessor without a wrap. -/
theorem Cursor.pred_toNat (some : size ≠ 0) : (size - 1).toNat = size.toNat - 1 := by
  rw [BitVec.toNat_sub_of_le (Cursor.one_le some), Cursor.one_toNat]

/-- The bit test of R95 finds the powers of two. -/
theorem Cursor.isPowerOfTwo_iff : size ≠ 0 ∧ size &&& (size - 1) = 0 ↔ size.toNat.isPowerOfTwo := by
  have zero (c : Cursor p) : c = 0 ↔ c.toNat = 0 := BitVec.toNat_inj.symm
  rw [← Nat.ne_zero_and_sub_one_eq_zero_iff_isPowerOfTwo, Ne, Ne, ← zero size]
  refine and_congr_right fun some => ?_
  rw [zero, BitVec.toNat_and, Cursor.pred_toNat some]

/-- R95 in numbers: the base is not 0, the size is a power of two, and the region ends within the address space. -/
theorem legalConfig_iff : legalConfig base size = true ↔
    base ≠ 0 ∧ size.toNat.isPowerOfTwo ∧ base.toNat + size.toNat ≤ 2 ^ p.addrW := by
  rw [← Cursor.isPowerOfTwo_iff]
  simp only [legalConfig, Bool.and_eq_true, decide_eq_true_eq, and_assoc]

/-- With the mask of a legal size, an offset is the cursor modulo the size (R23). -/
theorem offOf_toNat_of_legalConfig (legal : legalConfig base size = true) (c : Cursor p) :
    (offOf (size - 1) c).toNat = c.toNat % size.toNat := by
  obtain ⟨_, isPower, _⟩ := legalConfig_iff.mp legal
  obtain ⟨some, _⟩ := Cursor.isPowerOfTwo_iff.mpr isPower
  obtain ⟨k, power⟩ := isPower
  rw [offOf, BitVec.toNat_and, Cursor.pred_toNat some, power, Nat.and_two_pow_sub_one_eq_mod]

/-- In a legal region, a storage address is the base and the offset, without a wrap (R41, R48). -/
theorem saddrOf_toNat_of_legalConfig (legal : legalConfig base size = true) (c : Cursor p) :
    (saddrOf base (size - 1) c).toNat = base.toNat + c.toNat % size.toNat := by
  obtain ⟨_, isPower, region⟩ := legalConfig_iff.mp legal
  have inside := Nat.mod_lt c.toNat (Nat.pos_of_isPowerOfTwo isPower)
  rw [saddrOf, BitVec.toNat_add, BitVec.toNat_setWidth, offOf_toNat_of_legalConfig legal, Nat.mod_eq_of_lt (a := _ % _) (by omega),
    Nat.mod_eq_of_lt (by omega)]

/-- An address in the region from POOL_BASE on, taken as numbers, is a storage address (R41). -/
theorem Fifo.inStorage_of_toNat {a : Addr p} (from_base : s.poolBase.toNat ≤ a.toNat)
    (before_end : a.toNat < s.poolBase.toNat + s.capacity.toNat) : s.inStorage a = true := by
  rw [Fifo.inStorage, decide_eq_true_eq, BitVec.toNat_sub_of_le (BitVec.le_def.mpr from_base)]
  omega

/-- Settles O56: MASK is one less than a power of two, and the region does not wrap. -/
theorem everyAddressFormedLiesInStorage : Obligations.EveryAddressFormedLiesInStorage := by
  intro p s c on config
  obtain ⟨legal, mask⟩ := config on
  have offset : (s.off c).toNat = c.toNat % s.capacity.toNat := by
    rw [Fifo.off, mask]
    exact offOf_toNat_of_legalConfig legal c
  have address : (s.saddr c).toNat = s.poolBase.toNat + c.toNat % s.capacity.toNat := by
    rw [Fifo.saddr, mask]
    exact saddrOf_toNat_of_legalConfig legal c
  obtain ⟨_, isPower, _⟩ := legalConfig_iff.mp legal
  have inside := Nat.mod_lt c.toNat (Nat.pos_of_isPowerOfTwo isPower)
  exact ⟨offset, address, Fifo.inStorage_of_toNat (by omega) (by omega)⟩

end Sys2Proof.Machine
end

section
/-! What each side can see (R21, R39, R87): the configuration, memory, its own two cursor registers and its own responses. What a
side's command leaves for the side to see depends on nothing else. -/

namespace Sys2Proof.Machine

variable {p : Params} {side : Side} {s s' t t' : Fifo p} {i : Instr}

/-- What a side can see of a state; everything else is blank. -/
def Fifo.seenBy (side : Side) (s : Fifo p) : Fifo p :=
  match side with
  | .producer => { Fifo.reset p with
      configured := s.configured, poolBase := s.poolBase, capacity := s.capacity, mask := s.mask, mem := s.mem,
      wc := s.wc, rcSync := s.rcSync, respP := s.respP }
  | .consumer => { Fifo.reset p with
      configured := s.configured, poolBase := s.poolBase, capacity := s.capacity, mask := s.mask, mem := s.mem,
      rc := s.rc, wcSync := s.wcSync, respC := s.respC }

/-- A side sees all of what it sees. -/
@[simp] theorem Fifo.seenBy_seenBy (s : Fifo p) : (s.seenBy side).seenBy side = s.seenBy side := by
  cases side <;> rfl

/-- A side sees the responses on its own port. -/
@[simp] theorem Fifo.respond_seenBy (s : Fifo p) (r : Response p) :
    (s.respond side.port r).seenBy side = (s.seenBy side).respond side.port r := by
  cases side <;> rfl

@[simp] theorem Fifo.seenBy_configured (s : Fifo p) : (s.seenBy side).configured = s.configured := by cases side <;> rfl
@[simp] theorem Fifo.seenBy_capacity (s : Fifo p) : (s.seenBy side).capacity = s.capacity := by cases side <;> rfl

/-- A side sees its own occupancy. -/
@[simp] theorem Fifo.seenBy_usedOn (s : Fifo p) : (s.seenBy side).usedOn side = s.usedOn side := by cases side <;> rfl

/-- A side sees its own free space. -/
@[simp] theorem Fifo.seenBy_freeOn (s : Fifo p) : (s.seenBy side).freeOn side = s.freeOn side := by cases side <;> rfl

@[simp] theorem Fifo.seenBy_fullOn (s : Fifo p) : (s.seenBy side).fullOn side = s.fullOn side := by cases side <;> rfl
@[simp] theorem Fifo.seenBy_emptyOn (s : Fifo p) : (s.seenBy side).emptyOn side = s.emptyOn side := by cases side <;> rfl

/-- The bytes a bulk copy stores depend on the configuration and memory, which each side sees. -/
theorem Fifo.seenBy_copyIn_mem (s : Fifo p) (c : Cursor p) (bytes : List Byte) :
    ((s.seenBy side).copyIn c bytes).mem = (s.copyIn c bytes).mem := by
  induction bytes generalizing s c with
  | nil => cases side <;> rfl
  | cons byte bytes ih =>
    have first : (s.seenBy side).memWrite ((s.seenBy side).saddr c) byte = (s.memWrite (s.saddr c) byte).seenBy side := by
      cases side <;> rfl
    rw [Fifo.copyIn_cons, Fifo.copyIn_cons, first, ih]

/-- The bytes a bulk read answers depend on the configuration and memory, which each side sees. -/
theorem Fifo.seenBy_copyOut (s : Fifo p) (c : Cursor p) (k : Nat) : (s.seenBy side).copyOut c k = s.copyOut c k := by
  rw [Fifo.copyOut_eq_map, Fifo.copyOut_eq_map]
  cases side <;> rfl

/-! ## Local updates -/

/-- What the side sees after `update` depends only on what it sees before. -/
def Local (side : Side) (update : Fifo p → Fifo p) : Prop :=
  ∀ s, (update s).seenBy side = (update (s.seenBy side)).seenBy side

/-- Each side has a port of its own (R18). -/
theorem side_eq_of_port_eq {a b : Side} (same : a.port = b.port) : a = b := by
  cases a <;> cases b <;> trivial

/-- A local update leaves states alike that look alike to the side, when it is the update of that side's command. -/
theorem Local.seenBy_eq {asked : Side} {update : Fifo p → Fifo p} (loc : Local asked update) (own : asked.port = side.port)
    (alike : s.seenBy side = s'.seenBy side) (taken : State.next ⟨p, s⟩ (update s) = .next ⟨p, t⟩)
    (taken' : State.next ⟨p, s'⟩ (update s') = .next ⟨p, t'⟩) : t.seenBy side = t'.seenBy side := by
  obtain rfl := side_eq_of_port_eq own
  cases taken
  cases taken'
  rw [loc s, loc s', alike]

/-- A choice made on what the side sees, between local updates, is local. -/
theorem Local.ite {c : Fifo p → Prop} [∀ s, Decidable (c s)] {yes no : Fifo p → Fifo p}
    (sees : ∀ s, c (s.seenBy side) ↔ c s) (locYes : Local side yes) (locNo : Local side no) :
    Local side fun s => if c s then yes s else no s := by
  intro s
  by_cases holds : c s
  · simpa [holds, (sees s).mpr holds] using locYes s
  · simpa [holds, mt (sees s).mp holds] using locNo s

/-- Answering the side with something made from what it sees is local. -/
theorem Local.answer {r : Fifo p → Response p} (sees : ∀ s, r (s.seenBy side) = r s) :
    Local side fun s => s.respond side.port (r s) := by
  intro s
  simp [sees]

/-- The gate of R88 looks at CONFIGURED, which each side sees. -/
theorem Local.whenConfigured {update : Fifo p → Fifo p} (loc : Local side update) :
    Local side fun s => s.whenConfigured side.port (update s) :=
  Local.ite (fun s => by simp) loc (Local.answer fun _ => rfl)

/-- A query is local when its value is made from what the side sees. -/
theorem local_answerQuery {value : Fifo p → Cursor p} (sees : ∀ s, value (s.seenBy side) = value s) :
    Local side fun s => s.answerQuery side (value s) :=
  Local.whenConfigured (Local.answer fun s => by rw [sees])

theorem local_writeOne (byte : Byte) : Local (p := p) .producer fun s => s.writeOne byte :=
  Local.ite (fun _ => Iff.rfl) (fun _ => rfl) fun _ => rfl

theorem local_writeBytes {k : Fifo p → Cursor p} (sees : ∀ s, k (s.seenBy .producer) = k s) (payload : List Byte) :
    Local .producer fun s => s.writeBytes (k s) payload := by
  intro s
  simp only [Fifo.writeBytes_eq, sees, Fifo.seenBy_copyIn_mem]
  rfl

theorem local_writeBulkTrunc (n : Cursor p) (payload : List Byte) :
    Local .producer fun s => s.writeBytes (minOf n s.freeP) payload := local_writeBytes (fun _ => rfl) payload

theorem local_writeBulk (n : Cursor p) (payload : List Byte) : Local .producer fun s => s.writeBulk n payload :=
  Local.ite (fun _ => Iff.rfl) (fun _ => rfl) (local_writeBytes (fun _ => rfl) payload)

theorem local_lwRegion : Local .producer fun s : Fifo p => (s.setLwOpen true).respond .p (s.windowAt s.wc) := fun _ => rfl

theorem local_lwRemaining : Local .producer fun s : Fifo p => s.respond .p { status := .ok, value := s.remainIn } := fun _ => rfl

theorem local_lrRegion : Local .consumer fun s : Fifo p => (s.setLrOpen true).respond .c (s.windowAt s.rc) := fun _ => rfl

theorem local_lwFinish (n : Cursor p) : Local .producer fun s : Fifo p =>
    (((s.checkLwFinish n).setWc (s.wc + n)).setLwOpen false).respond .p { status := .ok } := by
  intro s
  simp [Fifo.seenBy, Fifo.respond]

theorem local_lrRemaining : Local .consumer fun s : Fifo p => s.respond .c { status := .ok, value := s.remainOut } := fun _ => rfl

theorem local_peekOne : Local .consumer fun s : Fifo p => s.respond .c s.frontResponse := fun _ => rfl

theorem local_readOne : Local (p := p) .consumer Fifo.readOne :=
  Local.ite (fun _ => Iff.rfl) (fun _ => rfl) fun _ => rfl

theorem local_readBulk (n : Cursor p) : Local .consumer fun s => s.readBulk n := by
  refine Local.ite (fun _ => Iff.rfl) (fun _ => rfl) fun s => ?_
  rw [Fifo.seenBy_copyOut]
  rfl

theorem local_lrFinish (n : Cursor p) : Local .consumer fun s : Fifo p =>
    (((s.checkLrFinish n).setRc (s.rc + n)).setLrOpen false).respond .c { status := .ok } := by
  intro s
  simp [Fifo.seenBy, Fifo.respond]

/-! ## Every command -/

/-- After a side's command two states still look alike to it. -/
theorem exec_seenBy_eq (own : i.port = side.port) (alike : s.seenBy side = s'.seenBy side)
    (taken : exec i ⟨p, s⟩ = .next ⟨p, t⟩) (taken' : exec i ⟨p, s'⟩ = .next ⟨p, t'⟩) :
    t.seenBy side = t'.seenBy side := by
  cases i with
  | init | reset => cases side <;> cases own
  | size asked =>
    have loc : Local asked fun s : Fifo p => s.answerQuery asked s.capacity :=
      local_answerQuery fun s => s.seenBy_capacity
    exact loc.seenBy_eq own alike taken taken'
  | used asked =>
    have loc : Local asked fun s : Fifo p => s.answerQuery asked (s.usedOn asked) :=
      local_answerQuery fun s => s.seenBy_usedOn
    exact loc.seenBy_eq own alike taken taken'
  | free asked =>
    have loc : Local asked fun s : Fifo p => s.answerQuery asked (s.freeOn asked) :=
      local_answerQuery fun s => s.seenBy_freeOn
    exact loc.seenBy_eq own alike taken taken'
  | isFull asked =>
    have loc : Local asked fun s : Fifo p => s.answerQuery asked (boolValue (s.fullOn asked)) :=
      local_answerQuery fun s => congrArg boolValue s.seenBy_fullOn
    exact loc.seenBy_eq own alike taken taken'
  | isEmpty asked =>
    have loc : Local asked fun s : Fifo p => s.answerQuery asked (boolValue (s.emptyOn asked)) :=
      local_answerQuery fun s => congrArg boolValue s.seenBy_emptyOn
    exact loc.seenBy_eq own alike taken taken'
  | writeOne byte => exact (local_writeOne byte).whenConfigured.seenBy_eq own alike taken taken'
  | writeBulk n payload =>
    exact (local_writeBulk _ payload).whenConfigured.seenBy_eq own alike (execWriteBulk_eq_next taken)
      (execWriteBulk_eq_next taken')
  | writeBulkTrunc n payload =>
    exact (local_writeBulkTrunc _ payload).whenConfigured.seenBy_eq own alike (execWriteBulkTrunc_eq_next taken)
      (execWriteBulkTrunc_eq_next taken')
  | lwRegion => exact local_lwRegion.whenConfigured.seenBy_eq own alike taken taken'
  | lwRemaining => exact local_lwRemaining.whenConfigured.seenBy_eq own alike taken taken'
  | lwFinish n => exact (local_lwFinish _).whenConfigured.seenBy_eq own alike taken taken'
  | readOne => exact local_readOne.whenConfigured.seenBy_eq own alike taken taken'
  | peekOne => exact local_peekOne.whenConfigured.seenBy_eq own alike taken taken'
  | readBulk n => exact (local_readBulk _).whenConfigured.seenBy_eq own alike taken taken'
  | lrRegion => exact local_lrRegion.whenConfigured.seenBy_eq own alike taken taken'
  | lrRemaining => exact local_lrRemaining.whenConfigured.seenBy_eq own alike taken taken'
  | lrFinish n => exact (local_lrFinish _).whenConfigured.seenBy_eq own alike taken taken'

/-- Settles O55: two states that look alike to a side still do after its command. -/
theorem eachSideSeesOnlyItsOwnView : Obligations.EachSideSeesOnlyItsOwnView := by
  intro p i s s' t t' taken taken' configured poolBase capacity mask mem
  constructor
  · intro producer wc rcSync respP
    have alike : s.seenBy .producer = s'.seenBy .producer := by
      simp only [Fifo.seenBy, configured, poolBase, capacity, mask, mem, wc, rcSync, respP]
    have after := exec_seenBy_eq producer alike taken taken'
    exact ⟨(congrArg Fifo.respP after :), (congrArg Fifo.wc after :), (congrArg Fifo.mem after :)⟩
  · intro consumer rc wcSync respC
    have alike : s.seenBy .consumer = s'.seenBy .consumer := by
      simp only [Fifo.seenBy, configured, poolBase, capacity, mask, mem, rc, wcSync, respC]
    have after := exec_seenBy_eq consumer alike taken taken'
    exact ⟨(congrArg Fifo.respC after :), (congrArg Fifo.rc after :), (congrArg Fifo.mem after :)⟩

end Sys2Proof.Machine
end

section
/-! Which cursors share a storage byte (R41, R48), and what it means for a byte to be committed (R50, R51). On a legal
configuration CAPACITY divides 2^CURSOR_W, so the storage byte of a cursor is given by its distance from any other cursor,
modulo CAPACITY. -/

namespace Sys2Proof.Machine

variable {p : Params} {s : Fifo p}

/-- A legal capacity divides the number of cursor values, so cursors may wrap without losing their place (R22). -/
theorem capacity_dvd_of_legalConfig {base : Addr p} {size : Cursor p} (legal : legalConfig base size = true) :
    size.toNat ∣ 2 ^ p.cursorW := by
  obtain ⟨_, ⟨k, power⟩, _⟩ := legalConfig_iff.mp legal
  have small : 2 ^ k < 2 ^ p.cursorW := power ▸ size.isLt
  rw [power]
  exact Nat.pow_dvd_pow 2 ((Nat.pow_lt_pow_iff_right Nat.one_lt_two).mp small).le

/-- A cursor is a start cursor and the distance from it, modulo any divisor of the number of cursor values. -/
theorem Cursor.toNat_modEq {size : Nat} (divides : size ∣ 2 ^ p.cursorW) (start c : Cursor p) :
    start.toNat + (c - start).toNat ≡ c.toNat [MOD size] := by
  have sum : start.toNat + (c - start).toNat ≡ c.toNat [MOD 2 ^ p.cursorW] := by
    rw [Nat.ModEq, ← BitVec.toNat_add, add_sub_cancel, Nat.mod_eq_of_lt c.isLt]
  exact sum.of_dvd divides

section
variable (on : s.configured = true) (config : s.ConfigOk)
include on config

theorem Fifo.saddr_toNat (c : Cursor p) : (s.saddr c).toNat = s.poolBase.toNat + c.toNat % s.capacity.toNat :=
  (everyAddressFormedLiesInStorage p s c on config).2.1

theorem Fifo.inStorage_saddr (c : Cursor p) : s.inStorage (s.saddr c) = true :=
  (everyAddressFormedLiesInStorage p s c on config).2.2

theorem Fifo.off_toNat (c : Cursor p) : (s.off c).toNat = c.toNat % s.capacity.toNat :=
  (everyAddressFormedLiesInStorage p s c on config).1

theorem Fifo.capacity_dvd : s.capacity.toNat ∣ 2 ^ p.cursorW := capacity_dvd_of_legalConfig (config on).1

/-- Two cursors share a storage byte exactly when their distances from a third agree modulo CAPACITY. -/
theorem Fifo.saddr_eq_iff (start c d : Cursor p) :
    s.saddr c = s.saddr d ↔ (c - start).toNat ≡ (d - start).toNat [MOD s.capacity.toNat] := by
  have from_c := Cursor.toNat_modEq (Fifo.capacity_dvd on config) start c
  have from_d := Cursor.toNat_modEq (Fifo.capacity_dvd on config) start d
  rw [← BitVec.toNat_inj, Fifo.saddr_toNat on config, Fifo.saddr_toNat on config, Nat.add_left_cancel_iff]
  exact ⟨fun same => (from_c.trans (Nat.ModEq.trans same from_d.symm)).add_left_cancel',
    fun same => from_c.symm.trans ((same.add_left _).trans from_d)⟩

/-- Cursors less than CAPACITY from one start have storage bytes of their own. -/
theorem Fifo.eq_of_saddr_eq {start c d : Cursor p} (near_c : (c - start).toNat < s.capacity.toNat)
    (near_d : (d - start).toNat < s.capacity.toNat) (same : s.saddr c = s.saddr d) : c = d := by
  have distance := ((Fifo.saddr_eq_iff on config start c d).mp same).eq_of_lt_of_lt near_c near_d
  simpa using congrArg (· + start) (BitVec.eq_of_toNat_eq distance)

/-- The model's cursor for an address is the first one from RC on that has the offset of that address. -/
theorem Fifo.cursorAt_sub_rc_toNat (a : Addr p) :
    (s.cursorAt a - s.rc).toNat = ((a - s.poolBase).setWidth p.cursorW - s.rc).toNat % s.capacity.toNat := by
  rw [← Fifo.off_toNat on config, Fifo.cursorAt, add_sub_cancel_left]
  rfl

/-- The cursor with the offset of a storage address has that address. -/
theorem Fifo.saddr_setWidth {a : Addr p} (stored : s.inStorage a = true) :
    s.saddr ((a - s.poolBase).setWidth p.cursorW) = a := by
  have inside : (a - s.poolBase).toNat < s.capacity.toNat := by simpa [Fifo.inStorage] using stored
  have offset : (s.off ((a - s.poolBase).setWidth p.cursorW)).setWidth p.addrW = a - s.poolBase := by
    apply BitVec.eq_of_toNat_eq
    rw [BitVec.toNat_setWidth, Fifo.off_toNat on config, BitVec.toNat_setWidth,
      Nat.mod_eq_of_lt (inside.trans s.capacity.isLt), Nat.mod_eq_of_lt inside, Nat.mod_eq_of_lt (a - s.poolBase).isLt]
  rw [Fifo.off] at offset
  rw [Fifo.saddr, saddrOf, offset, add_sub_cancel]

/-- The model's cursor for a storage address has that address. -/
theorem Fifo.saddr_cursorAt {a : Addr p} (stored : s.inStorage a = true) : s.saddr (s.cursorAt a) = a := by
  refine Eq.trans ?_ (Fifo.saddr_setWidth on config stored)
  rw [Fifo.saddr_eq_iff on config s.rc, Fifo.cursorAt_sub_rc_toNat on config]
  exact Nat.mod_modEq _ _

/-- No cursor of an address is nearer to RC, going up from it, than the model's. -/
theorem Fifo.cursorAt_saddr_sub_rc_le (c : Cursor p) :
    (s.cursorAt (s.saddr c) - s.rc).toNat ≤ (c - s.rc).toNat := by
  have same := (Fifo.saddr_eq_iff on config s.rc _ _).mp (Fifo.saddr_cursorAt on config (Fifo.inStorage_saddr on config c))
  rw [Fifo.cursorAt_sub_rc_toNat on config] at same
  rw [Fifo.cursorAt_sub_rc_toNat on config, ← Nat.mod_mod, same]
  exact Nat.mod_le _ _

/-- R50 in its own words: a byte is committed when some cursor of [RC, WC) has it as its storage byte. -/
theorem Fifo.committed_iff (a : Addr p) : s.committed a = true ↔ ∃ c : Cursor p, c - s.rc < s.wc - s.rc ∧ s.saddr c = a := by
  rw [Fifo.committed, Bool.and_eq_true, inRange, decide_eq_true_eq]
  constructor
  · rintro ⟨stored, inside⟩
    exact ⟨_, inside, Fifo.saddr_cursorAt on config stored⟩
  · rintro ⟨c, inside, rfl⟩
    have nearest := Fifo.cursorAt_saddr_sub_rc_le on config c
    exact ⟨Fifo.inStorage_saddr on config c, BitVec.lt_def.mpr (nearest.trans_lt (BitVec.lt_def.mp inside))⟩

end

end Sys2Proof.Machine
end

section
/-! The oldest agent step still to come is the one the machine takes (R121, R131); what an external access does (R49 to R52), and
which steps write memory (R65). -/

namespace Sys2Proof.Machine

variable {p : Params} {s t : Fifo p} {i : Instr} {move : AgentStep p} {rest : List (AgentStep p)}

/-- The oldest agent step, when it can be taken, is the machine's step. -/
theorem step_of_oldest (oldest : s.inputs = move :: rest)
    (taken : agentStep ⟨p, { s with inputs := rest }⟩ move = .next ⟨p, t⟩) :
    step ⟨p, s⟩ = .next ⟨p, t⟩ := by
  have enabled : s.enables move = true := by
    rw [← enables_of_agentStep taken]
    cases move <;> rfl
  rw [step_cons (by rw [Fifo.due_cons oldest, if_pos enabled]), taken]

/-- The oldest agent step is passed over when it is a crossing that is not enabled (log 5). -/
theorem step_of_disabled (oldest : s.inputs = move :: rest) (disabled : s.enables move = false) :
    step ⟨p, s⟩ = step ⟨p, { s with inputs := rest }⟩ := by
  have due : s.due = Fifo.due { s with inputs := rest } := by rw [Fifo.due_cons oldest, if_neg (by simp [disabled])]
  cases next : Fifo.due { s with inputs := rest } with
  | nil => rw [step_idle next, step_idle (due.trans next)]
  | cons move rest => rw [step_cons next, step_cons (due.trans next)]

/-! ## External accesses -/

/-- Settles O47: the step is `Fifo.extRead`. -/
theorem externalReadChangesNothing : Obligations.ExternalReadChangesNothing :=
  fun _ _ _ _ oldest => step_of_oldest oldest rfl

/-- Settles O46: `Fifo.extWrite` records the fault for what the model calls committed, which is what R50 calls so. -/
theorem externalWriteRecordsExactlyCommittedBytes : Obligations.ExternalWriteRecordsExactlyCommittedBytes := by
  intro p s a v rest config oldest
  have reads (b : Addr p) : (Fifo.extWrite { s with inputs := rest } a v).memRead b = if b = a then v else s.memRead b :=
    (Fifo.memRead_congr (by simp [Fifo.extWrite]) b).trans (s.memRead_memWrite a b v)
  refine ⟨_, step_of_oldest oldest rfl, ?_, by rw [reads, if_pos rfl], fun b other => by rw [reads, if_neg other], fun k => ?_⟩
  · rw [Fifo.extWrite_eq]
  · have recorded := Fifo.mem_raiseIf_faults (s := Fifo.memWrite { s with inputs := rest } a v)
      (s.configured && s.committed a) .extWriteCommitted k
    refine recorded.trans ?_
    rw [or_comm, Bool.and_eq_true, and_comm (b := k = _)]
    refine or_congr_right (and_congr_right fun _ => and_congr_right fun on => ?_)
    exact Fifo.committed_iff on config a

/-! ## What writes memory -/

@[simp] theorem Fifo.idle_mem (s : Fifo p) : s.idle.mem = s.mem := by
  unfold Fifo.idle
  split_ifs <;> rfl

/-- Of the commands only the three producer writes have an effect on memory (R65). -/
theorem Fifo.Effect.mem_eq_or_stores (did : s.Effect i t) : t.mem = s.mem ∨ Stores i := by
  cases did with
  | store stores => exact .inr stores
  | _ => exact .inl (by simp)

/-- A transaction that changes memory runs one of the three producer writes. -/
theorem mem_eq_or_stores_of_portStep {port : Port} {word : CmdWord p} {payload : List Byte}
    (taken : portStep ⟨p, s⟩ port word payload = .next ⟨p, t⟩) :
    t.mem = s.mem ∨ ∃ i, decode port word payload = .command i ∧ Stores i := by
  cases verdict : decode port word payload with
  | command i =>
    have did := exec_effect ((portStep_command verdict).symm.trans taken)
    exact did.mem_eq_or_stores.imp_right fun stores => ⟨i, rfl, stores⟩
  | illegal =>
    cases (portStep_illegal (s := ⟨p, s⟩) verdict).symm.trans taken
    exact .inl (by simp)
  | refused => cases (portStep_refused (s := ⟨p, s⟩) verdict).symm.trans taken

/-- A step that changes memory is an external write or runs one of the three producer writes. -/
theorem step_mem_writer (taken : step ⟨p, s⟩ = .next ⟨p, t⟩) :
    t.mem = s.mem ∨ (∃ a v, s.due.head? = some (.extWrite a v)) ∨ ∃ i, s.Runs i ∧ Stores i := by
  cases next : s.due with
  | nil =>
    cases (step_idle next).symm.trans taken
    exact .inl (by simp)
  | cons move rest =>
    rw [step_cons next] at taken
    cases move with
    | command port word payload =>
      refine (mem_eq_or_stores_of_portStep taken).imp_right fun ⟨i, spells, stores⟩ => .inr ⟨i, ?_, stores⟩
      exact ⟨port, word, payload, rest, next, spells⟩
    | extWrite a v => exact .inr (.inl ⟨a, v, rfl⟩)
    | crossR2P =>
      obtain ⟨_, rfl⟩ := agentStep_crossR2P_iff.mp taken
      exact .inl rfl
    | crossW2C =>
      obtain ⟨_, rfl⟩ := agentStep_crossW2C_iff.mp taken
      exact .inl rfl
    | extRead | powerOn =>
      cases taken
      exact .inl rfl

/-- Settles O53: a byte that changed is in memory that changed. -/
theorem onlyWritesChangeMemory : Obligations.OnlyWritesChangeMemory := by
  rintro p s t taken ⟨a, changed⟩
  rcases step_mem_writer taken with same | ext | ⟨i, runs, stores⟩
  · exact absurd (Fifo.memRead_congr same a) changed
  · exact .inl ext
  · cases stores with
    | writeOne byte => exact .inr (.inl ⟨byte, runs⟩)
    | writeBulk n payload => exact .inr (.inr (.inl ⟨n, payload, runs⟩))
    | writeBulkTrunc n payload => exact .inr (.inr (.inr ⟨n, payload, runs⟩))

end Sys2Proof.Machine
end

section
/-! The bytes of [RC, WC): no command overwrites one, and a consumer is given no other (R32, R50). -/

namespace Sys2Proof.Machine

variable {p : Params} {s t : Fifo p} {a : Addr p}

/-! ## Stores go where the producer sees free space -/

/-- Memory after is memory before, or memory after a copy at WC of no more bytes than the producer sees free. -/
def Fifo.StoresInFree (s t : Fifo p) : Prop :=
  t.mem = s.mem ∨ ∃ bytes : List Byte, bytes.length ≤ s.freeP.toNat ∧ t.mem = (s.copyIn s.wc bytes).mem

/-- Behind the gate of R88 a command stores what it stores, or nothing. -/
theorem Fifo.StoresInFree.whenConfigured (stored : s.StoresInFree t) (port : Port) :
    s.StoresInFree (s.whenConfigured port t) := by
  rcases Fifo.whenConfigured_cases (s := s) (done := t) (port := port) with ⟨_, runs⟩ | ⟨_, blocked⟩
  · rwa [runs]
  · exact .inl (by simp [blocked])

theorem Fifo.storesInFree_writeOne (s : Fifo p) (byte : Byte) : s.StoresInFree (s.writeOne byte) := by
  unfold Fifo.writeOne
  split_ifs with full
  · exact .inl (by simp)
  · have room := BitVec.le_def.mp (Cursor.one_le (c := s.freeP) (by simpa [Fifo.fullOn, Fifo.freeOn] using full))
    exact .inr ⟨[byte], by rwa [Cursor.one_toNat] at room, by simp [Fifo.copyIn_cons]⟩

theorem Fifo.storesInFree_writeBytes {k : Cursor p} (room : k ≤ s.freeP) (payload : List Byte) :
    s.StoresInFree (s.writeBytes k payload) :=
  .inr ⟨payload.take k.toNat, (List.length_take_le _ _).trans (BitVec.le_def.mp room), by rw [Fifo.writeBytes_eq]⟩

theorem Fifo.storesInFree_writeBulk (s : Fifo p) (n : Cursor p) (payload : List Byte) :
    s.StoresInFree (s.writeBulk n payload) := by
  unfold Fifo.writeBulk
  split_ifs with tooMany
  · exact .inl (by simp)
  · exact Fifo.storesInFree_writeBytes (BitVec.not_lt.mp tooMany) payload

theorem minOf_le_right (a b : Cursor p) : minOf a b ≤ b := by
  rw [BitVec.le_def, minOf_toNat]
  exact min_le_right _ _

/-- Every command stores only where the producer sees free space (R99, R103, R104). -/
theorem exec_storesInFree {i : Instr} (taken : exec i ⟨p, s⟩ = .next ⟨p, t⟩) : s.StoresInFree t := by
  rcases (exec_effect taken).mem_eq_or_stores with same | stores
  · exact .inl same
  · cases stores with
    | writeOne byte =>
      cases taken
      exact (s.storesInFree_writeOne byte).whenConfigured .p
    | writeBulk n payload =>
      cases execWriteBulk_eq_next taken
      exact (s.storesInFree_writeBulk _ payload).whenConfigured .p
    | writeBulkTrunc n payload =>
      cases execWriteBulkTrunc_eq_next taken
      exact (Fifo.storesInFree_writeBytes (minOf_le_right _ _) payload).whenConfigured .p

/-! ## Free and committed cursors -/

/-- What is really stored and what the producer sees free fit in the storage region together (R32). -/
theorem Fifo.ViewOk.usedTrue_add_freeP_le (view : s.ViewOk) : s.usedTrue.toNat + s.freeP.toNat ≤ s.capacity.toNat := by
  have := view.usedP_toNat
  have := view.usedP_le
  have := view.freeP_toNat
  omega

section
variable (on : s.configured = true) (config : s.ConfigOk)
include on config

/-- A committed cursor and one the producer sees free have different storage bytes. -/
theorem Fifo.saddr_ne_of_committed_of_free (view : s.ViewOk) {c : Cursor p} (inside : c - s.rc < s.wc - s.rc) {i : Nat}
    (free : i < s.freeP.toNat) :
    s.saddr c ≠ s.saddr (s.wc + p.cursor i) := by
  intro same
  have below := BitVec.lt_def.mp inside
  have fits := view.usedTrue_add_freeP_le
  have := s.capacity.isLt
  have size : (p.cursor i).toNat = i := Params.toNat_cursor (by omega)
  simp only [Fifo.usedTrue, usedOf] at fits
  have beyond := Cursor.add_sub_toNat s.wc (p.cursor i) s.rc (by omega)
  rw [Fifo.eq_of_saddr_eq on config (start := s.rc) (by omega) (by omega) same] at below
  omega

/-- A copy into free space leaves every committed byte (R50). -/
theorem Fifo.copyIn_memRead_committed (view : s.ViewOk) (bytes : List Byte) (room : bytes.length ≤ s.freeP.toNat)
    (committed : s.committed a = true) :
    (s.copyIn s.wc bytes).memRead a = s.memRead a := by
  obtain ⟨c, inside, rfl⟩ := (Fifo.committed_iff on config a).mp committed
  exact s.copyIn_memRead_other s.wc bytes _ fun i small =>
    Fifo.saddr_ne_of_committed_of_free on config view inside (by omega)

/-- The bytes from RC on, up to what is really stored, are committed. -/
theorem Fifo.committed_of_lt_usedTrue {k : Nat} (small : k < s.usedTrue.toNat) :
    s.committed (s.saddr (s.rc + p.cursor k)) = true := by
  refine (Fifo.committed_iff on config _).mpr ⟨_, ?_, rfl⟩
  rw [add_sub_cancel_left, BitVec.lt_def, Params.toNat_cursor (small.trans s.usedTrue.isLt)]
  exact small

end

/-- Settles O58: stores go into free space, and a free cursor shares no storage byte with a committed one. -/
theorem noCommandOverwritesACommittedByte : Obligations.NoCommandOverwritesACommittedByte := by
  rintro p i s t a ⟨_, config, view⟩ kept on taken committed
  rcases exec_storesInFree taken with same | ⟨bytes, room, same⟩
  · exact Fifo.memRead_congr same a
  · exact (Fifo.memRead_congr same a).trans (Fifo.copyIn_memRead_committed on config (view kept) bytes room committed)

/-! ## What a consumer is given -/

/-- The consumer sees no more than is really stored. -/
theorem Fifo.ViewOk.usedC_le_usedTrue (view : s.ViewOk) : s.usedC.toNat ≤ s.usedTrue.toNat := by
  rw [view.usedTrue_toNat]
  omega

@[simp] theorem Fifo.readOne_respC (s : Fifo p) : s.readOne.respC = s.respC ++ [s.frontResponse] := by
  unfold Fifo.readOne
  split_ifs <;> simp

/-- READ_ONE and PEEK_ONE answer OK with the byte at RC, and only when the consumer sees one. -/
theorem Fifo.frontResponse_of_ok (ok : s.frontResponse.status = .ok) :
    0 < s.usedC.toNat ∧ s.frontResponse.rdata = s.memRead (s.saddr s.rc) := by
  unfold Fifo.frontResponse at ok ⊢
  split_ifs at ok ⊢ with empty
  have some : s.usedC ≠ 0 := by simpa [Fifo.emptyOn, Fifo.usedOn] using empty
  exact ⟨Nat.pos_of_ne_zero fun none => some (BitVec.eq_of_toNat_eq none), rfl⟩

/-- READ_BULK answers OK with the bytes from RC on, and only as many as the consumer sees. -/
theorem Fifo.readBulk_of_ok {n : Cursor p} {r : Response p} (answered : (s.readBulk n).respC = s.respC ++ [r])
    (ok : r.status = .ok) : n ≤ s.usedC ∧ r.payload = s.copyOut s.rc n.toNat := by
  unfold Fifo.readBulk at answered
  split_ifs at answered with tooMany
  · obtain rfl : _ = r := by simpa using answered
    cases ok
  · obtain rfl : _ = r := by simpa using answered
    exact ⟨BitVec.not_lt.mp tooMany, rfl⟩

/-- Settles O59: each answer is read off from RC on and within what the consumer sees, which is within what is stored. -/
theorem consumerCommandsReturnOnlyCommittedBytes : Obligations.ConsumerCommandsReturnOnlyCommittedBytes := by
  rintro p i s t r ⟨_, config, view⟩ kept on taken answered ok
  have seen := (view kept).usedC_le_usedTrue
  have front (same : s.frontResponse = r) : s.committed (s.saddr s.rc) = true ∧ r.rdata = s.memRead (s.saddr s.rc) := by
    subst same
    obtain ⟨some, rdata⟩ := Fifo.frontResponse_of_ok ok
    exact ⟨by simpa using Fifo.committed_of_lt_usedTrue on config (some.trans_le seen), rdata⟩
  constructor
  · rintro (rfl | rfl)
    · cases taken
      exact front (by simpa [Fifo.whenConfigured_of_configured, on] using answered)
    · cases taken
      exact front (by simpa [Fifo.whenConfigured_of_configured, on] using answered)
  · rintro n rfl k inside
    cases taken
    rw [Fifo.whenConfigured_of_configured .c _ on] at answered
    obtain ⟨there, payload⟩ := Fifo.readBulk_of_ok answered ok
    have small : k < (p.cursor n).toNat := by simpa only [payload, Fifo.copyOut_length] using inside
    refine ⟨Fifo.committed_of_lt_usedTrue on config ((small.trans_le (BitVec.le_def.mp there)).trans_le seen), ?_⟩
    simp only [payload, Fifo.copyOut_eq_map, List.getElem_map, List.getElem_range]

end Sys2Proof.Machine
end

section
/-! What is written in bulk is read back in bulk, in order and across the wrap (R45, R58, R103, R106). -/

namespace Sys2Proof.Machine

variable {p : Params} {s t : Fifo p}

/-! ## Issued commands (R67, R84) -/

/-- A word packed with an assigned OP, on a port its group allows and with the payload its OP carries, spells that operation
(R80). -/
theorem decode_packWord {port : Port} {lo data : Byte} {arg : Cursor p} {addr : Addr p} {payload : List Byte} {op : Op}
    (assigned : Op.ofByte lo = some op) (legal : (groupOf lo).legalOn port = true)
    (carried : payload.length = payloadNeed lo arg) :
    decode port (packWord lo data arg addr : CmdWord p) payload =
      .command (op.command port (packWord lo data arg addr : CmdWord p) payload) := by
  unfold decode
  rw [fieldOp_packWord, assigned]
  simp only [if_pos legal, fieldArg_packWord, if_pos carried]

/-- An issued command runs, when the decoder reads back what was encoded. -/
theorem agentStep_issue {i : Instr}
    (spells : decode (encode p i).port (encode p i).word (encode p i).payload = .command i) :
    agentStep ⟨p, s⟩ (issue p i) = exec i ⟨p, s⟩ := by
  simp only [issue, agentStep]
  exact portStep_command spells

/-- On a configured core with room for them, an issued WRITE_BULK stores its bytes. -/
theorem agentStep_issue_writeBulk {n : Cursor p} {payload : List Byte} (on : s.configured = true)
    (carried : payload.length = n.toNat) (room : n ≤ s.freeP) :
    agentStep ⟨p, s⟩ (issue p (.writeBulk n.toNat payload)) = .next ⟨p, s.writeBytes n payload⟩ := by
  have spells : decode .p (Instr.word p (.writeBulk n.toNat payload)) payload = .command (.writeBulk n.toNat payload) := by
    rw [Instr.word, decode_packWord (op := .writeBulk) rfl rfl (by simpa [payloadNeed] using carried), Op.command,
      fieldArg_packWord, Params.cursor_toNat]
  rw [agentStep_issue spells]
  refine (execWriteBulk_of_payloadFits ((payloadFits_toNat n payload).mpr carried)).trans ?_
  rw [Fifo.whenConfigured_of_configured .p _ on, Params.cursor_toNat, Fifo.writeBulk, if_neg (BitVec.not_lt.mpr room)]

/-- On a configured core that shows them, an issued READ_BULK takes its bytes. -/
theorem agentStep_issue_readBulk {n : Cursor p} (on : s.configured = true) (there : n ≤ s.usedC) :
    agentStep ⟨p, s⟩ (issue p (.readBulk n.toNat)) = .next ⟨p, (s.setRc (s.rc + n)).respond .c
      { status := .ok, value := n, payload := s.copyOut s.rc n.toNat }⟩ := by
  have spells : decode .c (Instr.word p (.readBulk n.toNat)) [] = .command (.readBulk n.toNat) := by
    rw [Instr.word, decode_packWord (op := .readBulk) rfl rfl rfl, Op.command, fieldArg_packWord, Params.cursor_toNat]
  rw [agentStep_issue spells]
  show Host.Outcome.next (State.mk p (s.whenConfigured .c (s.readBulk (p.cursor n.toNat)))) = _
  rw [Fifo.whenConfigured_of_configured .c _ on, Params.cursor_toNat, Fifo.readBulk, if_neg (BitVec.not_lt.mpr there)]

/-! ## Runs -/

/-- A run goes on from where its first step ends. -/
theorem steps_succ {k : Nat} {s t : State} (taken : step s = .next t) : steps (k + 1) s = steps k t := by
  simp only [steps, taken]

/-- X_W2C as the oldest agent step takes one step while it is enabled and none while it is not; either way WC_SYNC is then WC
(R119). -/
theorem steps_crossW2C {rest : List (AgentStep p)} (k : Nat) (oldest : s.inputs = .crossW2C :: rest) :
    steps (if s.wcSync = s.wc then k + 1 else k + 2) ⟨p, s⟩ =
      steps (k + 1) ⟨p, { s with inputs := rest, wcSync := s.wc }⟩ := by
  split_ifs with crossed
  · have disabled : s.enables .crossW2C = false := by simp [Fifo.enables, Fifo.w2cEnabled, crossed]
    have after : { s with inputs := rest, wcSync := s.wc } = { s with inputs := rest } := by rw [← crossed]
    rw [steps, steps, step_of_disabled oldest disabled, after]
  · have enabled : s.w2cEnabled = true := by simpa [Fifo.w2cEnabled] using crossed
    exact steps_succ (step_of_oldest oldest (agentStep_crossW2C_iff.mpr ⟨enabled, rfl⟩))

/-- A bulk copy stores the same bytes whatever agent steps are still to come. -/
theorem Fifo.copyIn_mem_of_inputs (s : Fifo p) (rest : List (AgentStep p)) (c : Cursor p) (bytes : List Byte) :
    (Fifo.copyIn { s with inputs := rest } c bytes).mem = (s.copyIn c bytes).mem := by
  induction bytes generalizing s c with
  | nil => rfl
  | cons byte bytes ih => exact ih (s.memWrite (s.saddr c) byte) (c + 1)

/-- WRITE_BULK as the oldest agent step, on a configured core with room for its bytes. -/
theorem step_writeBulk {n : Cursor p} {payload : List Byte} {rest : List (AgentStep p)} (on : s.configured = true)
    (carried : payload.length = n.toNat) (room : n ≤ s.freeP)
    (oldest : s.inputs = issue p (.writeBulk n.toNat payload) :: rest) :
    step ⟨p, s⟩ = .next ⟨p, { s with
      inputs := rest, wc := s.wc + n, mem := (s.copyIn s.wc payload).mem,
      respP := s.respP ++ [{ status := .ok, value := n }] }⟩ := by
  rw [step_of_oldest oldest (agentStep_issue_writeBulk on carried room), Fifo.writeBytes_eq, List.take_of_length_le carried.le,
    Fifo.copyIn_mem_of_inputs]

/-- READ_BULK as the oldest agent step, on a configured core that shows its bytes. -/
theorem step_readBulk {n : Cursor p} {rest : List (AgentStep p)} (on : s.configured = true) (there : n ≤ s.usedC)
    (oldest : s.inputs = issue p (.readBulk n.toNat) :: rest) :
    step ⟨p, s⟩ = .next ⟨p, { s with
      inputs := rest, rc := s.rc + n,
      respC := s.respC ++ [{ status := .ok, value := n, payload := s.copyOut s.rc n.toNat }] }⟩ := by
  rw [step_of_oldest oldest (agentStep_issue_readBulk on there)]
  simp only [Fifo.copyOut_eq_map]
  rfl

/-- The core once `n` bytes are written in bulk at WC and WC has crossed to the consumer, with `rest` still to come. -/
def Fifo.writtenAcross (s : Fifo p) (n : Cursor p) (payload : List Byte) (rest : List (AgentStep p)) : Fifo p :=
  { s with
    inputs := rest, wc := s.wc + n, wcSync := s.wc + n, mem := (s.copyIn s.wc payload).mem,
    respP := s.respP ++ [{ status := .ok, value := n }] }

/-- A bulk write that fits, then X_W2C: two steps, or one when there was nothing to write and so nothing to carry across. -/
theorem steps_writeBulk_crossW2C {n : Cursor p} {payload : List Byte} {rest : List (AgentStep p)} (k : Nat)
    (on : s.configured = true) (crossed : s.wcSync = s.wc) (carried : payload.length = n.toNat) (room : n ≤ s.freeP)
    (oldest : s.inputs = issue p (.writeBulk n.toNat payload) :: .crossW2C :: rest) :
    steps (if n = 0 then k + 2 else k + 3) ⟨p, s⟩ = steps (k + 1) ⟨p, s.writtenAcross n payload rest⟩ := by
  have uncrossed : s.wcSync = s.wc + n ↔ n = 0 := by rw [crossed, left_eq_add]
  have count : (if n = 0 then k + 2 else k + 3) = (if s.wcSync = s.wc + n then k + 1 else k + 2) + 1 := by
    simp only [uncrossed]
    split_ifs <;> rfl
  rw [count, steps_succ (step_writeBulk on carried room oldest)]
  exact steps_crossW2C (s := { s with
    inputs := _, wc := s.wc + n, mem := (s.copyIn s.wc payload).mem, respP := s.respP ++ [{ status := .ok, value := n }] }) k rfl

/-! ## The copies, one after the other -/

/-- A bulk read depends on memory, POOL_BASE and MASK alone. -/
theorem Fifo.copyOut_congr (mem : s.mem = t.mem) (base : s.poolBase = t.poolBase) (mask : s.mask = t.mask)
    (c : Cursor p) (k : Nat) : s.copyOut c k = t.copyOut c k := by
  simp only [Fifo.copyOut_eq_map, Fifo.saddr_congr base mask, Fifo.memRead_congr mem]

/-- What is then read is read from the memory the copy left, whatever the schedule. -/
theorem Fifo.copyOut_writtenAcross (s : Fifo p) (moves rest : List (AgentStep p)) (n c : Cursor p) (payload : List Byte) (k : Nat) :
    ((s.schedule moves).writtenAcross n payload rest).copyOut c k = (s.copyIn s.wc payload).copyOut c k := by
  apply Fifo.copyOut_congr
  · exact s.copyIn_mem_of_inputs _ s.wc payload
  · simp [Fifo.writtenAcross, Fifo.schedule]
  · simp [Fifo.writtenAcross, Fifo.schedule]

/-- A bulk read is that of its first cursors and then that of the others. -/
theorem Fifo.copyOut_append (s : Fifo p) (c : Cursor p) (j k : Nat) :
    s.copyOut c (j + k) = s.copyOut c j ++ s.copyOut (c + p.cursor j) k := by
  simp only [Fifo.copyOut_eq_map, List.range_add, List.map_append, List.map_map, Function.comp_def, BitVec.ofNat_add, add_assoc]

section
variable (on : s.configured = true) (config : s.ConfigOk)
include on config

/-- No more than CAPACITY cursors in a row have storage bytes of their own. -/
theorem Fifo.saddr_injective_of_lt_capacity (c : Cursor p) {i j : Nat} (i_small : i < s.capacity.toNat)
    (j_small : j < s.capacity.toNat) (same : s.saddr (c + p.cursor i) = s.saddr (c + p.cursor j)) : i = j := by
  have i_fits : (p.cursor i).toNat = i := Params.toNat_cursor (i_small.trans s.capacity.isLt)
  have j_fits : (p.cursor j).toNat = j := Params.toNat_cursor (j_small.trans s.capacity.isLt)
  have equal := Fifo.eq_of_saddr_eq on config (start := c) (by rwa [add_sub_cancel_left, i_fits])
    (by rwa [add_sub_cancel_left, j_fits]) same
  rw [← i_fits, ← j_fits, add_left_cancel equal]

/-- A bulk copy of no more than CAPACITY bytes is read back whole. -/
theorem Fifo.copyOut_copyIn (c : Cursor p) {bytes : List Byte} (fits : bytes.length ≤ s.capacity.toNat) :
    (s.copyIn c bytes).copyOut c bytes.length = bytes := by
  refine List.ext_getElem (by simp) fun i _ small => ?_
  simp only [Fifo.copyOut_eq_map, List.getElem_map, List.getElem_range]
  rw [Fifo.saddr_congr (s := s.copyIn c bytes) (t := s) (by simp) (by simp)]
  exact s.copyIn_memRead_at c bytes (fun i _ j _ => Fifo.saddr_injective_of_lt_capacity on config c (by omega) (by omega)) i small

/-- Bytes copied into free space are read back after the bytes that were there, in order, wraparound included (R45, W2). -/
theorem Fifo.copyOut_copyIn_free (view : s.ViewOk) {bytes : List Byte} (room : bytes.length ≤ s.freeP.toNat) :
    (s.copyIn s.wc bytes).copyOut s.rc (s.usedTrue.toNat + bytes.length) = s.copyOut s.rc s.usedTrue.toNat ++ bytes := by
  have fits := view.usedTrue_add_freeP_le
  have wc : s.rc + p.cursor s.usedTrue.toNat = s.wc := by
    rw [Params.cursor_toNat]
    exact add_sub_cancel _ _
  rw [Fifo.copyOut_append, wc, Fifo.copyOut_copyIn on config _ (by omega)]
  congr 1
  simp only [Fifo.copyOut_eq_map]
  refine List.map_congr_left fun i inside => ?_
  rw [Fifo.saddr_congr (s := s.copyIn s.wc bytes) (t := s) (by simp) (by simp)]
  exact Fifo.copyIn_memRead_committed on config view bytes room
    (Fifo.committed_of_lt_usedTrue on config (List.mem_range.mp inside))

end

/-- Settles O32: WC has crossed, so the consumer sees the bytes that were there and those just written, and takes them all. -/
theorem bulkWriteThenBulkReadReturnsTheBytes : Obligations.BulkWriteThenBulkReadReturnsTheBytes := by
  rintro p s n payload on config view ⟨_, crossed⟩ carried room
  have all : (s.usedTrue + n).toNat = s.usedTrue.toNat + payload.length := by
    have fits := view.usedTrue_add_freeP_le
    have := s.capacity.isLt
    rw [carried, BitVec.toNat_add_of_lt (by omega)]
  have seen : s.usedTrue + n = s.wc + n - s.rc := (add_sub_right_comm _ _ _).symm
  have before := steps_writeBulk_crossW2C
    (s := s.schedule [issue p (.writeBulk n.toNat payload), .crossW2C, issue p (.readBulk (s.usedTrue + n).toNat)])
    0 on crossed carried (BitVec.le_def.mpr room) rfl
  refine ⟨_, before.trans (steps_succ (step_readBulk on (BitVec.le_of_eq seen) rfl)), rfl, ?_, rfl, ?_⟩
  · rw [← Fifo.copyOut_copyIn_free on config view (carried.trans_le room), ← all, ← s.copyOut_writtenAcross]
    rfl
  · exact (congrArg (s.rc + ·) seen).trans (add_sub_cancel _ _)

end Sys2Proof.Machine
end

section
/-! The decoder (R70 to R75, R80): which transaction has which verdict, and that it undoes the encoder (R84). -/

namespace Sys2Proof

open Machine

variable {p : Params} {port : Port} {word : CmdWord p} {payload : List Byte} {op : Op} {i : Instr}

/-! ## Encoding, then decoding (R84) -/

/-- A number that fits in ARG is read back whole. -/
theorem argField_packWord_toNat {n : Nat} (lo data : Byte) (addr : Addr p) (fits : fitsArg p n = true) :
    (argField (packWord lo data (p.cursor n) addr : CmdWord p)).toNat = n := by
  rw [fieldArg_packWord, Params.toNat_cursor (of_decide_eq_true fits)]

/-- A number that fits in ADDR is read back whole. -/
theorem addrField_packWord_toNat {n : Nat} (lo data : Byte) (arg : Cursor p) (fits : fitsAddr p n = true) :
    (addrField (packWord lo data arg (p.addr n) : CmdWord p)).toNat = n := by
  rw [fieldAddr_packWord, BitVec.toNat_ofNat, Nat.mod_eq_of_lt (of_decide_eq_true fits)]

@[simp] theorem Side.side_port (side : Side) : side.port.side = side := by cases side <;> rfl

/-- The decoder reads what an agent sends for a well-formed command as that command. -/
theorem decode_encode (wf : i.wf p = true) :
    decode (encode p i).port (encode p i).word (encode p i).payload = .command i := by
  cases i with
  | init base bytes =>
    obtain ⟨base_fits, bytes_fits⟩ := Bool.and_eq_true_iff.mp wf
    refine (decode_packWord (op := .init) rfl rfl rfl).trans ?_
    rw [Op.command, argField_packWord_toNat _ _ _ bytes_fits, addrField_packWord_toNat _ _ _ base_fits]
  | writeOne byte =>
    refine (decode_packWord (op := .writeOne) rfl rfl rfl).trans ?_
    rw [Op.command, fieldData_packWord]
  | writeBulk n payload | writeBulkTrunc n payload =>
    obtain ⟨fits, carried⟩ := Bool.and_eq_true_iff.mp wf
    refine (decode_packWord rfl rfl (by simpa [payloadNeed, payloadFits, encode, Instr.payload] using carried)).trans ?_
    rw [Op.command, argField_packWord_toNat _ _ _ fits]
    rfl
  | lwFinish n | readBulk n | lrFinish n =>
    refine (decode_packWord rfl rfl rfl).trans ?_
    rw [Op.command, argField_packWord_toNat _ _ _ wf]
  | size side | used side | free side | isFull side | isEmpty side =>
    refine (decode_packWord rfl (by cases side <;> rfl) rfl).trans ?_
    simp [Op.command, encode, Instr.port]
  | reset | lwRegion | lwRemaining | readOne | peekOne | lrRegion | lrRemaining =>
    exact (decode_packWord rfl rfl rfl).trans rfl

/-- Settles O10: the word holds the operands where the decoder looks for them. -/
theorem decodeOfEncodeIsTheCommand : Obligations.DecodeOfEncodeIsTheCommand := fun _ _ => decode_encode

/-! ## The opcode map read backwards (R74) -/

/-- The OP byte of an operation. -/
def Op.byte : Op → Byte
  | .init => 0x01
  | .reset => 0x02
  | .size => 0x40
  | .used => 0x41
  | .free => 0x42
  | .isFull => 0x43
  | .isEmpty => 0x44
  | .writeOne => 0x80
  | .writeBulk => 0x81
  | .writeBulkTrunc => 0x82
  | .lwRegion => 0x83
  | .lwRemaining => 0x84
  | .lwFinish => 0x85
  | .readOne => 0xC0
  | .peekOne => 0xC1
  | .readBulk => 0xC2
  | .lrRegion => 0xC3
  | .lrRemaining => 0xC4
  | .lrFinish => 0xC5

/-- An operation has one OP byte. -/
theorem Op.ofByte_eq_some_iff {b : Byte} : Op.ofByte b = some op ↔ b = op.byte := by
  constructor
  · intro assigned
    unfold Op.ofByte at assigned
    split at assigned <;> cases assigned <;> exact BitVec.eq_of_toNat_eq ‹_›
  · rintro rfl
    cases op <;> rfl

/-- The unassigned OP bytes, as numbers (R74, R75). -/
theorem Op.ofByte_eq_none_iff {b : Byte} : Op.ofByte b = none ↔
    b.toNat ∉ [0x01, 0x02, 0x40, 0x41, 0x42, 0x43, 0x44, 0x80, 0x81, 0x82, 0x83, 0x84, 0x85,
      0xC0, 0xC1, 0xC2, 0xC3, 0xC4, 0xC5] := by
  unfold Op.ofByte
  split
  case h_20 => simp only [List.mem_cons, List.not_mem_nil, or_false]; tauto
  all_goals simp [*]

/-! ## The verdicts (R80) -/

/-- A transaction spells a command exactly when its OP is assigned and legal on its port and its payload is as long as R73 says;
it is then the command the OP reads off the word. -/
theorem decode_eq_command_iff : decode port word payload = .command i ↔ ∃ op : Op,
    fieldOp word = op.byte ∧ (groupOf op.byte).legalOn port = true ∧
      payload.length = payloadNeed op.byte (argField word) ∧ op.command port word payload = i := by
  constructor
  · intro spells
    unfold decode at spells
    split at spells
    case h_1 => cases spells
    case h_2 op assigned =>
      have byte := Op.ofByte_eq_some_iff.mp assigned
      split_ifs at spells with legal carried
      exact ⟨op, byte, byte ▸ legal, byte ▸ carried, Verdict.command.inj spells⟩
  · rintro ⟨op, byte, legal, carried, rfl⟩
    unfold decode
    rw [byte, Op.ofByte_eq_some_iff.mpr rfl]
    simp only [if_pos legal, if_pos carried]

/-- A transaction is ILLEGAL exactly when its OP is unassigned or not for its port, whatever its payload (R75). -/
theorem decode_eq_illegal_iff : decode port word payload = .illegal ↔
    Op.ofByte (fieldOp word) = none ∨ (groupOf (fieldOp word)).legalOn port = false := by
  unfold decode
  cases Op.ofByte (fieldOp word) with
  | none => simp
  | some op => split_ifs with legal <;> simp [legal]

/-- The decoder refuses a transaction exactly when it is not ILLEGAL and its payload has the wrong length (R73). -/
theorem decode_eq_refused_iff : decode port word payload = .refused ↔
    decode port word payload ≠ .illegal ∧ payload.length ≠ payloadNeed (fieldOp word) (argField word) := by
  unfold decode
  cases Op.ofByte (fieldOp word) with
  | none => simp
  | some op => split_ifs <;> simp [*]

/-- GROUP is the OP's quarter, and a port has its own quarters (R69, R70). -/
theorem legalOn_groupOf_eq_false_iff {b : Byte} : (groupOf b).legalOn port = false ↔
    (b.toNat / 64 = 0 ∧ port ≠ .k) ∨ (b.toNat / 64 = 1 ∧ port = .k) ∨ (b.toNat / 64 = 2 ∧ port ≠ .p) ∨
      (b.toNat / 64 = 3 ∧ port ≠ .c) := by
  have bits : (b.extractLsb' 6 2).toNat = b.toNat / 64 := by
    have := b.isLt
    simp only [BitVec.extractLsb'_toNat, Nat.shiftRight_eq_div_pow]
    omega
  have quarter : b.toNat / 64 < 4 := by have := b.isLt; omega
  unfold groupOf
  rw [bits]
  interval_cases b.toNat / 64 <;> cases port <;> decide

/-! ## Commands the decoder reads -/

/-- The operands of a command are fields of the word, so they fit; its payload is as long as ARG announces (R73). -/
theorem Op.command_wf (carried : payload.length = payloadNeed op.byte (argField word)) :
    (op.command port word payload).wf p = true := by
  have arg : fitsArg p (argField word).toNat = true := decide_eq_true (argField word).isLt
  have addr : fitsAddr p (addrField word).toNat = true := decide_eq_true (addrField word).isLt
  cases op with
  | init => exact Bool.and_eq_true_iff.mpr ⟨addr, arg⟩
  | writeBulk | writeBulkTrunc => exact Bool.and_eq_true_iff.mpr ⟨arg, (payloadFits_toNat _ payload).mpr carried⟩
  | lwFinish | readBulk | lrFinish => exact arg
  | _ => rfl

/-- A command is issued on the port its transaction arrived on, when that port may issue it (R70). -/
theorem Op.port_command (legal : (groupOf op.byte).legalOn port = true) : (op.command port word payload).port = port := by
  cases op with
  | init | reset =>
    cases port with
    | k => rfl
    | p | c => cases legal
  | size | used | free | isFull | isEmpty =>
    cases port with
    | p | c => rfl
    | k => cases legal
  | writeOne | writeBulk | writeBulkTrunc | lwRegion | lwRemaining | lwFinish =>
    cases port with
    | p => rfl
    | c | k => cases legal
  | readOne | peekOne | readBulk | lrRegion | lrRemaining | lrFinish =>
    cases port with
    | c => rfl
    | p | k => cases legal

/-- A command carries the payload of its transaction (R73). -/
theorem Op.payload_command (carried : payload.length = payloadNeed op.byte (argField word)) :
    (op.command port word payload).payload = payload := by
  cases op with
  | writeBulk | writeBulkTrunc => rfl
  | _ => exact (List.length_eq_zero_iff.mp carried).symm

/-- A command is written with its operation's OP byte. -/
theorem Op.fieldOp_word_command : fieldOp ((op.command port word payload).word p) = op.byte := by
  cases op <;> exact fieldOp_packWord _ _ _ _

/-- Settles O11: whatever the decoder reads off a word fits where the encoder writes it, so `decode_encode` applies. -/
theorem decodedCommandsAreWellFormedAndEncodeBack : Obligations.DecodedCommandsAreWellFormedAndEncodeBack := by
  intro p port word payload i spells
  obtain ⟨op, byte, legal, carried, rfl⟩ := decode_eq_command_iff.mp spells
  have samePort : (encode p (op.command port word payload)).port = port := Op.port_command legal
  have samePayload : (encode p (op.command port word payload)).payload = payload := Op.payload_command carried
  have wf : (op.command port word payload).wf p = true := Op.command_wf carried
  have back := decode_encode wf
  rw [samePort, samePayload] at back
  exact ⟨wf, samePort, samePayload, Op.fieldOp_word_command.trans byte.symm, back⟩

/-! ## Fields a command does not read (R71, R72) -/

/-- A command depends on the fields R71 gives its OP. -/
theorem Op.command_congr {other : CmdWord p}
    (data : op.byte.toNat = 0x80 → fieldData word = fieldData other)
    (arg : op.byte.toNat ∈ [0x01, 0x81, 0x82, 0x85, 0xC2, 0xC5] → argField word = argField other)
    (addr : op.byte.toNat = 0x01 → addrField word = addrField other) :
    op.command port word payload = op.command port other payload := by
  cases op with
  | init => rw [Op.command, Op.command, arg (by decide), addr (by decide)]
  | writeOne => rw [Op.command, Op.command, data (by decide)]
  | writeBulk | writeBulkTrunc | lwFinish | readBulk | lrFinish => rw [Op.command, Op.command, arg (by decide)]
  | _ => rfl

/-- The payload length depends on ARG for the bulk writes alone (R73). -/
theorem Op.payloadNeed_congr {arg other : Cursor p}
    (same : op.byte.toNat ∈ [0x01, 0x81, 0x82, 0x85, 0xC2, 0xC5] → arg = other) :
    payloadNeed op.byte arg = payloadNeed op.byte other := by
  cases op with
  | writeBulk | writeBulkTrunc => rw [same (by decide)]
  | _ => rfl

/-- In the word of a command, each operand field that R71 does not give the command is 0. -/
theorem Instr.word_unread_fields_eq_zero (p : Params) (i : Instr) :
    ((fieldOp (i.word p)).toNat ≠ 0x80 → fieldData (i.word p) = 0) ∧
    ((fieldOp (i.word p)).toNat ∉ [0x01, 0x81, 0x82, 0x85, 0xC2, 0xC5] → argField (i.word p) = 0) ∧
    ((fieldOp (i.word p)).toNat ≠ 0x01 → addrField (i.word p) = 0) := by
  cases i with
  | init base bytes => simp [Instr.word, fieldOp_packWord, fieldData_packWord]
  | _ => simp [Instr.word, fieldOp_packWord, fieldData_packWord, fieldArg_packWord, fieldAddr_packWord]

/-- Settles O12: the decoder asks for OP, for the fields R71 gives that OP, and for nothing else of the word. -/
theorem unreadFieldsAreIgnoredAndWrittenAsZero : Obligations.UnreadFieldsAreIgnoredAndWrittenAsZero := by
  refine ⟨fun p port word other payload sameOp data arg addr => ?_, Instr.word_unread_fields_eq_zero⟩
  unfold decode
  rw [← sameOp]
  cases assigned : Op.ofByte (fieldOp word) with
  | none => rfl
  | some op =>
    rw [Op.ofByte_eq_some_iff.mp assigned] at data arg addr ⊢
    simp only [Op.command_congr data arg addr, Op.payloadNeed_congr arg]

/-- Settles O9: each word is the one its command is encoded to. -/
theorem specWordsDecodeToTheirCommands : Obligations.SpecWordsDecodeToTheirCommands :=
  ⟨decode_encode (i := .init 0x1000 8) (by decide), decode_encode (i := .init 0x1000 6) (by decide),
    decode_encode (i := .reset) (by decide), decode_encode (i := .writeOne 0x5A) (by decide),
    decode_encode (i := .writeBulk 6 [1, 2, 3, 4, 5, 6]) (by decide), decode_encode (i := .readBulk 4) (by decide),
    decode_encode (i := .lwFinish 5) (by decide)⟩

end Sys2Proof
end

section
/-! What a port does with the verdict (R73, R75, R88), and when a meaning refuses its command (logs 7 and 17). -/

namespace Sys2Proof.Machine

variable {p : Params} {s : Fifo p} {port : Port} {word : CmdWord p} {payload : List Byte} {rest : List (AgentStep p)} {i : Instr}

/-- A transaction is always enabled, so as the oldest agent step it is the machine's step. -/
theorem step_of_oldest_command (oldest : s.inputs = .command port word payload :: rest) :
    step ⟨p, s⟩ = portStep ⟨p, { s with inputs := rest }⟩ port word payload :=
  step_cons ((Fifo.due_cons oldest).trans (if_pos rfl))

/-- Settles O5: the port decodes the transaction and runs its command. -/
theorem stepRunsTheDecodedCommand : Obligations.StepRunsTheDecodedCommand := fun _ _ _ _ _ _ _ oldest spells =>
  (step_of_oldest_command oldest).trans (portStep_command spells)

/-- A response writes the response lists and nothing else (R15). -/
theorem Fifo.respond_eq (s : Fifo p) (port : Port) (r : Response p) : s.respond port r =
    { s with
      respP := (s.respond port r).respP, respC := (s.respond port r).respC, respK := (s.respond port r).respK } := by
  cases port <;> rfl

/-- Settles O6: the verdict by OP and port, and the port's answer to it. -/
theorem illegalCommandsAnswerIllegalAndChangeNothing : Obligations.IllegalCommandsAnswerIllegalAndChangeNothing := by
  intro p s port word payload rest
  refine ⟨?_, fun oldest verdict => ⟨_, (step_of_oldest_command oldest).trans (portStep_illegal verdict), ?_, ?_, ?_⟩⟩
  · rw [decode_eq_illegal_iff, Op.ofByte_eq_none_iff, legalOn_groupOf_eq_false_iff]
  · exact Fifo.respond_eq _ port _
  · exact (Fifo.respond_responses _ port port _).trans (if_pos rfl)
  · exact fun q other => (Fifo.respond_responses _ port q _).trans (if_neg other.symm)

/-- Settles O7: the length is checked after the OP and the port. -/
theorem wrongPayloadLengthHasNoStep : Obligations.WrongPayloadLengthHasNoStep := fun _ _ _ _ _ _ =>
  ⟨decode_eq_refused_iff, fun oldest verdict => (step_of_oldest_command oldest).trans (portStep_refused verdict)⟩

/-! ## The meanings of the bulk writes -/

/-- A payload is refused when its length is not the number ARG holds. -/
theorem payloadFits_eq_false_iff {n : Nat} : payloadFits p n payload = false ↔ payload.length ≠ n % 2 ^ p.cursorW := by
  simp [payloadFits]

/-- The length test of the bulk writes refuses a payload of another length, whatever it stands before (R73, log 7). -/
theorem ite_payloadFits_eq_refused_iff {n : Nat} {done : Fifo p} {r : Refusal} :
    (if payloadFits p n payload then State.next ⟨p, s⟩ done else .refused .payloadLength) = .refused r ↔
      r = .payloadLength ∧ payload.length ≠ n % 2 ^ p.cursorW := by
  rw [← payloadFits_eq_false_iff]
  split_ifs with fits <;> simp [fits, eq_comm]

/-- A command is refused for its payload's length and for nothing else. -/
theorem exec_eq_refused_iff {r : Refusal} : exec i ⟨p, s⟩ = .refused r ↔ r = .payloadLength ∧
    ∃ n payload, (i = .writeBulk n payload ∨ i = .writeBulkTrunc n payload) ∧ payload.length ≠ n % 2 ^ p.cursorW := by
  cases i with
  | writeBulk n payload | writeBulkTrunc n payload => exact ite_payloadFits_eq_refused_iff.trans (by simp)
  | _ => exact iff_of_false State.next_ne_refused (by simp)

/-- Settles O15: the refusal of each bulk write, and that no other meaning refuses. -/
theorem execRefusesExactlyWrongPayloadLengths : Obligations.ExecRefusesExactlyWrongPayloadLengths := fun _ _ _ =>
  ⟨exec_eq_refused_iff.trans (and_iff_right rfl), fun _ refused => (exec_eq_refused_iff.mp refused).1⟩

end Sys2Proof.Machine
end

section
/-! The response word (R76, R77). -/

namespace Sys2Proof

/-- Bits of the low byte of a word are bits of the word. -/
theorem extractLsb'_fieldOp {w start len : Nat} (word : BitVec w) (inside : start + len ≤ 8) :
    (fieldOp word).extractLsb' start len = word.extractLsb' start len := by
  unfold fieldOp
  ext i small
  have below : start + i < 8 := by omega
  simp [below]

namespace Machine

variable {p : Params}

/-- STATUS is one of the codes of R77; 6 and 7 are reserved. -/
theorem Status.code_ne_reserved (status : Status) : status.code ≠ 6 ∧ status.code ≠ 7 := by cases status <;> decide

/-- The low byte of a response word is STATUS and five zeros. -/
theorem Response.fieldOp_word (r : Response p) : fieldOp r.word = r.status.code.setWidth 8 := fieldOp_packWord _ _ _ _

/-- STATUS = RW[2:0]. -/
theorem Response.status_word (r : Response p) : r.word.extractLsb' 0 3 = r.status.code := by
  rw [← extractLsb'_fieldOp r.word (by decide), r.fieldOp_word]
  cases r.status <;> rfl

/-- RW[7:3] is 0. -/
theorem Response.zeros_word (r : Response p) : r.word.extractLsb' 3 5 = 0 := by
  rw [← extractLsb'_fieldOp r.word (by decide), r.fieldOp_word]
  cases r.status <;> rfl

/-- Settles O13: the fields above STATUS are those of the command word's layout. -/
theorem responseWordHoldsItsFields : Obligations.ResponseWordHoldsItsFields := by
  refine ⟨fun p r => ?_, rfl, rfl, rfl, rfl, rfl, rfl⟩
  obtain ⟨not_six, not_seven⟩ := r.status.code_ne_reserved
  rw [r.status_word]
  exact ⟨rfl, r.zeros_word, fieldData_packWord _ _ _ _, fieldArg_packWord _ _ _ _, fieldAddr_packWord _ _ _ _,
    not_six, not_seven⟩

end Machine

end Sys2Proof
end

section
/-! A zero-copy line (R83) does what one bulk command does: its window is one run of storage (R107), so the accesses of EXT and the
copy of the bulk command are the same. -/

namespace Sys2Proof.Machine

variable {p : Params} {s t : Fifo p} {rest : List (AgentStep p)}

/-! ## A copy along one run of addresses (R65, R102) -/

/-- The address of byte `i + 1` counted from `a` is that of byte `i` counted from `a + 1`. -/
theorem addr_succ (a : Addr p) (i : Nat) : a + 1 + p.addr i = a + p.addr (i + 1) := by
  rw [BitVec.add_assoc, Nat.add_comm i, Params.addr, Params.addr, BitVec.ofNat_add]
  rfl

/-- The first `k` cursors from `c` on have the addresses from `a` on. -/
def Fifo.RunsAlong (s : Fifo p) (c : Cursor p) (a : Addr p) (k : Nat) : Prop :=
  ∀ i < k, s.saddr (c + p.cursor i) = a + p.addr i

theorem Fifo.RunsAlong.head {c : Cursor p} {a : Addr p} {k : Nat} (along : s.RunsAlong c a (k + 1)) : s.saddr c = a := by
  simpa using along 0 k.succ_pos

theorem Fifo.RunsAlong.tail {c : Cursor p} {a : Addr p} {k : Nat} (along : s.RunsAlong c a (k + 1)) :
    s.RunsAlong (c + 1) (a + 1) k := by
  intro i small
  rw [cursor_succ, addr_succ]
  exact along (i + 1) (Nat.succ_lt_succ small)

/-- Along one run of addresses the copy in cursor order is one pass. -/
theorem Fifo.copyIn_eq_writeRun {c : Cursor p} {a : Addr p} {bytes : List Byte} (along : s.RunsAlong c a bytes.length) :
    s.copyIn c bytes = s.writeRun a bytes := by
  induction bytes generalizing s c a with
  | nil => rfl
  | cons byte bytes ih =>
    rw [Fifo.copyIn_cons, Fifo.writeRun, along.head]
    exact ih (s := s.memWrite a byte) along.tail

/-- Along one run of addresses the bytes in cursor order are one pass. -/
theorem Fifo.copyOut_eq_readRun {c : Cursor p} {a : Addr p} {k : Nat} (along : s.RunsAlong c a k) :
    s.copyOut c k = s.readRun a k := by
  induction k generalizing c a with
  | zero => rfl
  | succ k ih => rw [Fifo.copyOut, Fifo.readRun, along.head, ih along.tail]

/-- What a bulk copy leaves in memory depends on memory, POOL_BASE and MASK alone. -/
theorem Fifo.copyIn_mem_congr (mem : s.mem = t.mem) (base : s.poolBase = t.poolBase) (mask : s.mask = t.mask)
    (c : Cursor p) (bytes : List Byte) : (s.copyIn c bytes).mem = (t.copyIn c bytes).mem := by
  induction bytes generalizing s t c with
  | nil => exact mem
  | cons byte bytes ih =>
    refine ih (s := s.memWrite (s.saddr c) byte) (t := t.memWrite (t.saddr c) byte) ?_ base mask (c + 1)
    rw [Fifo.memWrite_mem, Fifo.memWrite_mem, mem, Fifo.saddr_congr base mask]

/-- What is read along a run depends on memory alone. -/
theorem Fifo.readRun_congr (mem : s.mem = t.mem) (a : Addr p) (k : Nat) : s.readRun a k = t.readRun a k := by
  induction k generalizing a with
  | zero => rfl
  | succ k ih => rw [Fifo.readRun, Fifo.readRun, ih, Fifo.memRead_congr mem]

/-- In a window the addresses rise by one, without a wrap (R107). -/
theorem Fifo.runsAlong_of_le_remain (on : s.configured = true) (config : s.ConfigOk) (c : Cursor p) {k : Nat}
    (window : k ≤ (remainOf s.capacity s.mask c).toNat) : s.RunsAlong c (s.saddr c) k := by
  intro i small
  obtain ⟨_, isPower, region⟩ := legalConfig_iff.mp (config on).1
  have offset : (offOf s.mask c).toNat = c.toNat % s.capacity.toNat := Fifo.off_toNat on config c
  have inside := Nat.mod_lt c.toNat (Nat.pos_of_isPowerOfTwo isPower)
  rw [remainOf, BitVec.toNat_sub_of_le (BitVec.le_def.mpr (offset.trans_le inside.le)), offset] at window
  have place : (c + p.cursor i).toNat % s.capacity.toNat = c.toNat % s.capacity.toNat + i := by
    rw [BitVec.toNat_add, Nat.mod_mod_of_dvd _ (Fifo.capacity_dvd on config),
      Params.toNat_cursor (by have := s.capacity.isLt; omega), ← Nat.mod_add_mod, Nat.mod_eq_of_lt (a := _ + i) (by omega)]
  apply BitVec.eq_of_toNat_eq
  rw [BitVec.toNat_add, Fifo.saddr_toNat on config, Fifo.saddr_toNat on config, place, BitVec.toNat_ofNat, Nat.add_mod_mod,
    Nat.mod_eq_of_lt (a := _ + i) (by omega), Nat.add_assoc]

/-! ## The accesses of EXT, one after the other (R83) -/

/-- A byte that is not committed is written without a record (R51). -/
theorem Fifo.extWrite_of_uncommitted {a : Addr p} (outside : s.committed a = false) (v : Byte) :
    s.extWrite a v = s.memWrite a v := by
  simp [Fifo.extWrite, Fifo.raiseIf, outside]

/-- The writes of a fill, none of them to a committed byte, write a run of memory. -/
theorem steps_fillSteps {a : Addr p} {bytes : List Byte}
    (outside : ∀ i < bytes.length, s.committed (a + p.addr i) = false) :
    steps (fillSteps a bytes ++ rest).length ⟨p, s.schedule (fillSteps a bytes ++ rest)⟩ =
      steps rest.length ⟨p, (s.writeRun a bytes).schedule rest⟩ := by
  induction bytes generalizing s a with
  | nil => rfl
  | cons byte bytes ih =>
    have first : s.committed a = false := by simpa using outside 0 (by simp)
    have written : agentStep ⟨p, s.schedule (fillSteps (a + 1) bytes ++ rest)⟩ (.extWrite a byte) =
        .next ⟨p, (s.memWrite a byte).schedule (fillSteps (a + 1) bytes ++ rest)⟩ :=
      congrArg (fun u => Host.Outcome.next (State.mk p u))
        (Fifo.extWrite_of_uncommitted (s := s.schedule (fillSteps (a + 1) bytes ++ rest)) first byte)
    refine (steps_schedule_cons written).trans (ih fun i small => ?_)
    rw [addr_succ]
    exact outside (i + 1) (by simpa using small)

/-- EXT has been given `k` bytes from `a` on. -/
def Fifo.extReadRun (s : Fifo p) (a : Addr p) (k : Nat) : Fifo p := { s with extReads := s.extReads ++ s.readRun a k }

/-- The reads of a drain give EXT a run of memory. -/
theorem steps_drainSteps {a : Addr p} {k : Nat} :
    steps (drainSteps a k ++ rest).length ⟨p, s.schedule (drainSteps a k ++ rest)⟩ =
      steps rest.length ⟨p, (s.extReadRun a k).schedule rest⟩ := by
  induction k generalizing s a with
  | zero => simp [drainSteps, Fifo.extReadRun, Fifo.readRun]
  | succ k ih =>
    have all : (s.extRead a).extReadRun (a + 1) k = s.extReadRun a (k + 1) := by
      have same := Fifo.readRun_congr (s := s.extRead a) (t := s) rfl (a + 1) k
      rw [Fifo.extReadRun, same]
      simp [Fifo.extReadRun, Fifo.extRead, Fifo.readRun]
    rw [← all]
    exact (steps_schedule_cons (move := .extRead a) (moves := drainSteps (a + 1) k ++ rest)
      (t := (s.extRead a).schedule (drainSteps (a + 1) k ++ rest)) rfl).trans ih

/-! ## Opening and closing a window (R109, R111, R112, R114) -/

/-- An issued command that is well formed runs. -/
theorem agentStep_issue_of_wf {i : Instr} (wf : i.wf p = true) : agentStep ⟨p, s⟩ (issue p i) = exec i ⟨p, s⟩ :=
  agentStep_issue (decode_encode wf)

/-- The core with a producer's window open. -/
def Fifo.openedIn (s : Fifo p) : Fifo p := (s.setLwOpen true).respond .p (s.windowAt s.wc)

/-- The core with a consumer's window open. -/
def Fifo.openedOut (s : Fifo p) : Fifo p := (s.setLrOpen true).respond .c (s.windowAt s.rc)

/-- The core with the first `n` bytes of the producer's window committed. -/
def Fifo.finishedIn (s : Fifo p) (n : Cursor p) : Fifo p :=
  ((s.setWc (s.wc + n)).setLwOpen false).respond .p { status := .ok }

/-- The core with the first `n` bytes of the consumer's window released. -/
def Fifo.finishedOut (s : Fifo p) (n : Cursor p) : Fifo p :=
  ((s.setRc (s.rc + n)).setLrOpen false).respond .c { status := .ok }

theorem agentStep_issue_lwRegion (on : s.configured = true) :
    agentStep ⟨p, s⟩ (issue p .lwRegion) = .next ⟨p, s.openedIn⟩ := by
  rw [agentStep_issue_of_wf rfl, exec, execLwRegion, Fifo.whenConfigured_of_configured _ _ on]
  rfl

theorem agentStep_issue_lrRegion (on : s.configured = true) :
    agentStep ⟨p, s⟩ (issue p .lrRegion) = .next ⟨p, s.openedOut⟩ := by
  rw [agentStep_issue_of_wf rfl, exec, execLrRegion, Fifo.whenConfigured_of_configured _ _ on]
  rfl

/-- A commit within the window and the free space breaks no duty (R108). -/
theorem Fifo.checkLwFinish_of_le {n : Cursor p} (window : n ≤ s.remainIn) (room : n ≤ s.freeP) : s.checkLwFinish n = s := by
  simp [Fifo.checkLwFinish, Fifo.raiseIf, BitVec.not_lt.mpr window, BitVec.not_lt.mpr room]

/-- A release within the window and the occupancy breaks no duty (R108). -/
theorem Fifo.checkLrFinish_of_le {n : Cursor p} (window : n ≤ s.remainOut) (there : n ≤ s.usedC) : s.checkLrFinish n = s := by
  simp [Fifo.checkLrFinish, Fifo.raiseIf, BitVec.not_lt.mpr window, BitVec.not_lt.mpr there]

theorem agentStep_issue_lwFinish {n : Cursor p} (on : s.configured = true) (window : n ≤ s.remainIn) (room : n ≤ s.freeP) :
    agentStep ⟨p, s⟩ (issue p (.lwFinish n.toNat)) = .next ⟨p, s.finishedIn n⟩ := by
  rw [agentStep_issue_of_wf (i := .lwFinish n.toNat) (decide_eq_true n.isLt), exec, execLwFinish,
    Fifo.whenConfigured_of_configured _ _ on, Params.cursor_toNat, Fifo.checkLwFinish_of_le window room]
  rfl

theorem agentStep_issue_lrFinish {n : Cursor p} (on : s.configured = true) (window : n ≤ s.remainOut) (there : n ≤ s.usedC) :
    agentStep ⟨p, s⟩ (issue p (.lrFinish n.toNat)) = .next ⟨p, s.finishedOut n⟩ := by
  rw [agentStep_issue_of_wf (i := .lrFinish n.toNat) (decide_eq_true n.isLt), exec, execLrFinish,
    Fifo.whenConfigured_of_configured _ _ on, Params.cursor_toNat, Fifo.checkLrFinish_of_le window there]
  rfl

/-! ## The lines -/

/-- A DMA_FILL that fits the window is not rejected. -/
theorem dmaFill_steps (on : s.configured = true) {bytes : List Byte} (window : bytes.length ≤ s.remainIn.toNat) :
    (Line.dmaFill bytes).steps s =
      some (issue p .lwRegion :: fillSteps (s.saddr s.wc) bytes ++ [issue p (.lwFinish bytes.length)]) := by
  have answer : s.windowAnswer s.wc = s.windowAt s.wc := if_pos on
  rw [Line.steps, answer]
  exact if_neg (Nat.not_lt.mpr window)

/-- A DMA_DRAIN that fits the window is not rejected. -/
theorem dmaDrain_steps (on : s.configured = true) {k : Cursor p} (window : k ≤ s.remainOut) :
    (Line.dmaDrain k).steps s =
      some (issue p .lrRegion :: drainSteps (s.saddr s.rc) k.toNat ++ [issue p (.lrFinish k.toNat)]) := by
  have answer : s.windowAnswer s.rc = s.windowAt s.rc := if_pos on
  rw [Line.steps, answer]
  exact if_neg (BitVec.not_lt.mpr window)

/-- The bytes of a window within the producer's free space are not committed (R50). -/
theorem Fifo.uncommitted_of_free (on : s.configured = true) (config : s.ConfigOk) (view : s.ViewOk) {i : Nat}
    (free : i < s.freeP.toNat) : s.committed (s.saddr (s.wc + p.cursor i)) = false := by
  rw [Bool.eq_false_iff, Ne, Fifo.committed_iff on config]
  rintro ⟨c, inside, same⟩
  exact Fifo.saddr_ne_of_committed_of_free on config view inside free same

/-- The steps of a DMA_FILL that fits copy its bytes in and commit them. -/
theorem steps_dmaFill {n : Cursor p} {bytes : List Byte} (on : s.configured = true) (config : s.ConfigOk) (view : s.ViewOk)
    (carried : bytes.length = n.toNat) (window : n ≤ s.remainIn) (room : n ≤ s.freeP) {moves : List (AgentStep p)}
    (line : moves = issue p .lwRegion :: fillSteps (s.saddr s.wc) bytes ++ [issue p (.lwFinish n.toNat)]) :
    steps moves.length ⟨p, s.schedule moves⟩ = .next ⟨p, (s.openedIn.copyIn s.wc bytes).finishedIn n⟩ := by
  have along : s.RunsAlong s.wc (s.saddr s.wc) bytes.length :=
    Fifo.runsAlong_of_le_remain on config s.wc (carried.trans_le (BitVec.le_def.mp window))
  have outside : ∀ i < bytes.length, s.committed (s.saddr s.wc + p.addr i) = false := fun i small =>
    along i small ▸ Fifo.uncommitted_of_free on config view (small.trans_le (carried.trans_le (BitVec.le_def.mp room)))
  have copied : s.openedIn.copyIn s.wc bytes = s.openedIn.writeRun (s.saddr s.wc) bytes :=
    Fifo.copyIn_eq_writeRun (s := s.openedIn) along
  have finishes : agentStep ⟨p, s.openedIn.copyIn s.wc bytes⟩ (issue p (.lwFinish n.toNat)) =
      .next ⟨p, (s.openedIn.copyIn s.wc bytes).finishedIn n⟩ :=
    agentStep_issue_lwFinish (by simpa [Fifo.openedIn] using on) (by simpa [Fifo.openedIn, Fifo.remainIn] using window)
      (by simpa [Fifo.openedIn, Fifo.freeP] using room)
  subst line
  calc
    _ = steps (fillSteps (s.saddr s.wc) bytes ++ [issue p (.lwFinish n.toNat)]).length
          ⟨p, s.openedIn.schedule (fillSteps (s.saddr s.wc) bytes ++ [issue p (.lwFinish n.toNat)])⟩ :=
      steps_schedule_cons (agentStep_issue_lwRegion on)
    _ = steps 1 ⟨p, (s.openedIn.copyIn s.wc bytes).schedule [issue p (.lwFinish n.toNat)]⟩ :=
      copied ▸ steps_fillSteps (s := s.openedIn) outside
    _ = .next ⟨p, (s.openedIn.copyIn s.wc bytes).finishedIn n⟩ := steps_schedule_cons (moves := []) finishes

/-- The steps of a DMA_DRAIN that fits give EXT the bytes of the window and release them. -/
theorem steps_dmaDrain {k : Cursor p} (on : s.configured = true) (window : k ≤ s.remainOut) (there : k ≤ s.usedC)
    {moves : List (AgentStep p)}
    (line : moves = issue p .lrRegion :: drainSteps (s.saddr s.rc) k.toNat ++ [issue p (.lrFinish k.toNat)]) :
    steps moves.length ⟨p, s.schedule moves⟩ =
      .next ⟨p, (s.openedOut.extReadRun (s.saddr s.rc) k.toNat).finishedOut k⟩ := by
  have finishes : agentStep ⟨p, s.openedOut.extReadRun (s.saddr s.rc) k.toNat⟩ (issue p (.lrFinish k.toNat)) =
      .next ⟨p, (s.openedOut.extReadRun (s.saddr s.rc) k.toNat).finishedOut k⟩ :=
    agentStep_issue_lrFinish on window there
  subst line
  calc
    _ = steps (drainSteps (s.saddr s.rc) k.toNat ++ [issue p (.lrFinish k.toNat)]).length
          ⟨p, s.openedOut.schedule (drainSteps (s.saddr s.rc) k.toNat ++ [issue p (.lrFinish k.toNat)])⟩ :=
      steps_schedule_cons (agentStep_issue_lrRegion on)
    _ = steps 1 ⟨p, (s.openedOut.extReadRun (s.saddr s.rc) k.toNat).schedule [issue p (.lrFinish k.toNat)]⟩ :=
      steps_drainSteps
    _ = .next ⟨p, (s.openedOut.extReadRun (s.saddr s.rc) k.toNat).finishedOut k⟩ := steps_schedule_cons (moves := []) finishes

/-- Settles O38: the window holds the cursors the bulk write copies to, and the free space holds no committed byte. -/
theorem zeroCopyFillEqualsOneBulkWrite : Obligations.ZeroCopyFillEqualsOneBulkWrite := by
  intro p s bytes inv kept on window room
  obtain ⟨_, config, view⟩ := inv
  obtain ⟨n, carried⟩ : ∃ n : Cursor p, bytes.length = n.toNat :=
    ⟨p.cursor bytes.length, (Params.toNat_cursor (window.trans_lt s.remainIn.isLt)).symm⟩
  have line := dmaFill_steps on window
  rw [carried] at line window room ⊢
  have runs := steps_dmaFill on config (view kept) carried (BitVec.le_def.mpr window) (BitVec.le_def.mpr room) rfl
  have wf : (Instr.writeBulk n.toNat bytes).wf p = true :=
    Bool.and_eq_true_iff.mpr ⟨decide_eq_true n.isLt, (payloadFits_toNat n bytes).mpr carried⟩
  have bulk : exec (.writeBulk n.toNat bytes) ⟨p, s⟩ = .next ⟨p, s.writeBytes n bytes⟩ :=
    (agentStep_issue_of_wf wf).symm.trans (agentStep_issue_writeBulk on carried (BitVec.le_def.mpr room))
  refine ⟨_, _, _, line, runs, bulk, ?_, ?_, ?_, ?_⟩
  · rw [Fifo.writeBytes_eq, List.take_of_length_le carried.le]
    exact Fifo.copyIn_mem_congr (s := s.openedIn) (t := s) rfl rfl rfl s.wc bytes
  · simp [Fifo.writeBytes_eq, Fifo.finishedIn, Fifo.openedIn]
  · simpa [Fifo.ContractKept, Fifo.finishedIn, Fifo.openedIn] using kept
  · rfl

/-- Settles O39: the window holds the cursors the bulk read copies from. -/
theorem zeroCopyDrainEqualsOneBulkRead : Obligations.ZeroCopyDrainEqualsOneBulkRead := by
  intro p s k inv kept on window there
  obtain ⟨_, config, _⟩ := inv
  have along : s.RunsAlong s.rc (s.saddr s.rc) k.toNat := Fifo.runsAlong_of_le_remain on config s.rc window
  have read : s.openedOut.readRun (s.saddr s.rc) k.toNat = s.copyOut s.rc k.toNat :=
    (Fifo.readRun_congr (s := s.openedOut) (t := s) rfl _ _).trans (Fifo.copyOut_eq_readRun along).symm
  have bulk : exec (.readBulk k.toNat) ⟨p, s⟩ = .next ⟨p, (s.setRc (s.rc + k)).respond .c
      { status := .ok, value := k, payload := s.copyOut s.rc k.toNat }⟩ :=
    (agentStep_issue_of_wf (i := .readBulk k.toNat) (decide_eq_true k.isLt)).symm.trans
      (agentStep_issue_readBulk on (BitVec.le_def.mpr there))
  exact ⟨_, _, _, _, dmaDrain_steps on (BitVec.le_def.mpr window),
    steps_dmaDrain on (BitVec.le_def.mpr window) (BitVec.le_def.mpr there) rfl, bulk, rfl, congrArg (s.extReads ++ ·) read,
    rfl, rfl, kept, rfl⟩

end Sys2Proof.Machine
end

section
/-! What the five queries answer (R89 to R94): one table of values, read off the view of the side that asks. -/

namespace Sys2Proof.Machine

variable {p : Params} {s : Fifo p} {side : Side} {i : Instr} {value : Cursor p}

/-- Free space in a view is what its occupancy leaves of CAPACITY (R92). -/
theorem Fifo.freeOn_eq : s.freeOn side = s.capacity - s.usedOn side := by cases side <;> rfl

/-- A comparison as a VALUE (R78). -/
theorem boolValue_beq (a b : Cursor p) : boolValue (p := p) (a == b) = if a = b then 1 else 0 := by simp [boolValue]

/-- The queries of a side, each with the value its rule computes from the occupancy in the side's view. -/
inductive Fifo.QueryValue (s : Fifo p) (side : Side) : Instr → Cursor p → Prop
  /-- R90. -/
  | size : Fifo.QueryValue s side (.size side) s.capacity
  /-- R91. -/
  | used : Fifo.QueryValue s side (.used side) (s.usedOn side)
  /-- R92. -/
  | free : Fifo.QueryValue s side (.free side) (s.capacity - s.usedOn side)
  /-- R93. -/
  | isFull : Fifo.QueryValue s side (.isFull side) (if s.capacity - s.usedOn side = 0 then 1 else 0)
  /-- R94. -/
  | isEmpty : Fifo.QueryValue s side (.isEmpty side) (if s.usedOn side = 0 then 1 else 0)

/-- A query does nothing but answer its value, behind the gate of R88. -/
theorem Fifo.QueryValue.exec_eq (query : s.QueryValue side i value) :
    exec i ⟨p, s⟩ = .next ⟨p, s.answerQuery side value⟩ := by
  cases query with
  | size | used => rfl
  | free => rw [← Fifo.freeOn_eq]; rfl
  | isFull => rw [← Fifo.freeOn_eq, ← boolValue_beq]; rfl
  | isEmpty => rw [← boolValue_beq]; rfl

/-- On a configured core a query answers OK with its value. -/
theorem Fifo.QueryValue.exec_of_configured (query : s.QueryValue side i value) (on : s.configured = true) :
    exec i ⟨p, s⟩ = .next ⟨p, s.respond side.port { status := .ok, value := value }⟩ := by
  rw [query.exec_eq, Fifo.answerQuery, Fifo.whenConfigured_of_configured _ _ on]

/-- On an unconfigured core a query answers NOT_CONFIGURED, whatever its value would be. -/
theorem Fifo.QueryValue.exec_of_unconfigured (query : s.QueryValue side i value) (off : s.configured = false) :
    exec i ⟨p, s⟩ = .next ⟨p, s.respond side.port { status := .notConfigured }⟩ := by
  rw [query.exec_eq, Fifo.answerQuery, Fifo.whenConfigured_of_unconfigured _ _ off]

/-- On a configured core a query appends its value to its side's responses, and writes nothing but the responses of P and C
(R89). -/
theorem Fifo.QueryValue.appends_value (query : s.QueryValue side i value) (on : s.configured = true) :
    ∃ t, exec i ⟨p, s⟩ = .next ⟨p, t⟩ ∧
      t.responses side.port = s.responses side.port ++ [{ status := .ok, value := value }] ∧
      t = { s with respP := t.respP, respC := t.respC } := by
  refine ⟨_, query.exec_of_configured on, ?_, ?_⟩
  · exact (Fifo.respond_responses _ side.port side.port _).trans (if_pos rfl)
  · cases side <;> rfl

/-- Settles O19: the occupancy in the rules is that of the side's view, and each query has its row in the table. -/
theorem queriesAnswerFromTheirSidesView : Obligations.QueriesAnswerFromTheirSidesView := by
  intro p s side u
  have view : u = s.usedOn side := by cases side <;> rfl
  clear_value u
  subst view
  refine ⟨fun on => ?_, fun off => ?_⟩
  · have answers {i value} (query : s.QueryValue side i value) := query.exec_of_configured on
    exact ⟨answers .size, answers .used, answers .free, answers .isFull, answers .isEmpty⟩
  · have blocked {i value} (query : s.QueryValue side i value) := query.exec_of_unconfigured off
    simp only [List.forall_mem_cons, List.not_mem_nil, false_imp_iff, implies_true, and_true]
    exact ⟨blocked .size, blocked .used, blocked .free, blocked .isFull, blocked .isEmpty⟩

/-- Settles O20: the values of the table agree, since FREE is the difference of SIZE and USED. -/
theorem queriesOfOneSideAgree : Obligations.QueriesOfOneSideAgree := by
  intro p s side on
  refine ⟨s.capacity, s.usedOn side, s.capacity - s.usedOn side, _, _, ?_, ?_, rfl, rfl⟩
  · have answers {i value} (query : s.QueryValue side i value) := query.appends_value on
    simp only [List.forall_mem_cons, List.not_mem_nil, false_imp_iff, implies_true, and_true]
    exact ⟨answers .size, answers .used, answers .free, answers .isFull, answers .isEmpty⟩
  · rw [BitVec.add_comm, BitVec.sub_add_cancel]

end Sys2Proof.Machine
end

section
/-! What INIT does (R95, R96): the rule's four conditions, the one open-window check, and the state on each side of the test. -/

namespace Sys2Proof.Machine

variable {p : Params} {s : Fifo p} {base : Addr p} {size : Cursor p}

/-- Settles O21: a power of two is not 0, so the rule's second condition follows from its third. -/
theorem legalConfigurationIsTheRulesFourConditions : Obligations.LegalConfigurationIsTheRulesFourConditions := by
  intro p base size
  rw [legalConfig_iff]
  constructor
  · rintro ⟨notNull, isPower, region⟩
    obtain ⟨some, _⟩ := Cursor.isPowerOfTwo_iff.mpr isPower
    exact ⟨notNull, some, isPower, region⟩
  · rintro ⟨notNull, _, isPower, region⟩
    exact ⟨notNull, isPower, region⟩

/-- A legal configuration has a capacity (R95). -/
theorem size_ne_zero_of_legalConfig (legal : legalConfig base size = true) : size ≠ 0 := by
  obtain ⟨_, some, _⟩ := (legalConfigurationIsTheRulesFourConditions p base size).mp legal
  exact some

/-- The open-window check changes the window flags and FAULTS (R96, R115). -/
theorem Fifo.abandonWindows_eq (s : Fifo p) (kind : ModelFault) :
    s.abandonWindows kind = { s with
      lwOpen := false, lrOpen := false, faults := (s.abandonWindows kind).faults } := by
  unfold Fifo.abandonWindows Fifo.raiseIf
  split_ifs <;> rfl

/-- INIT on a legal configuration (R96). -/
theorem Fifo.init_of_legal (legal : legalConfig base size = true) :
    s.init base size = { s with
      configured := true, poolBase := base, capacity := size, mask := size - 1, wc := 0, rc := 0, rcSync := 0, wcSync := 0,
      lwOpen := false, lrOpen := false, faults := (s.abandonWindows .initWithOpenWindow).faults,
      respK := s.respK ++ [{ status := .ok }] } := by
  rw [Fifo.init, if_pos legal, Fifo.abandonWindows_eq]
  rfl

/-- INIT on any other configuration (R96). -/
theorem Fifo.init_of_not_legal (illegal : legalConfig base size = false) :
    s.init base size = { s with
      configured := false, lwOpen := false, lrOpen := false, faults := (s.abandonWindows .initWithOpenWindow).faults,
      respK := s.respK ++ [{ status := .configError }] } := by
  rw [Fifo.init, if_neg (by simp [illegal]), Fifo.abandonWindows_eq]
  rfl

/-- An INIT whose operands fill their fields runs on those operands (R71, R96). -/
theorem exec_init_toNat (s : Fifo p) (base : Addr p) (size : Cursor p) :
    exec (.init base.toNat size.toNat) ⟨p, s⟩ = .next ⟨p, s.init base size⟩ := by
  change (State.mk p s).next (s.init (p.addr base.toNat) (p.cursor size.toNat)) = _
  rw [Params.addr_toNat, Params.cursor_toNat]
  rfl

/-- With every cursor 0, a configured core shows both sides an empty queue with all of a capacity that is not 0 free (R33). -/
theorem Fifo.flags_of_zero (on : s.configured = true) (some : s.capacity ≠ 0) (wc : s.wc = 0) (rc : s.rc = 0)
    (rcSync : s.rcSync = 0) (wcSync : s.wcSync = 0) (side : Side) :
    s.flags side = { used := 0, free := s.capacity, full := false, empty := true } := by
  obtain ⟨producer, consumer, _⟩ := (flagOutputsFollowTheViews p s).1 on
  have notFull : decide (s.capacity = 0#p.cursorW) = false := decide_eq_false some
  cases side with
  | producer => simpa [wc, rcSync, notFull] using producer
  | consumer => simpa [wcSync, rc, notFull] using consumer

/-- Settles O22: the state INIT leaves on each side of the legality test, and what its outputs then are. -/
theorem initBindsTheCoreOrLeavesItUnconfigured : Obligations.InitBindsTheCoreOrLeavesItUnconfigured := by
  intro p s base size
  constructor
  · intro legal
    have runs := exec_init_toNat s base size
    rw [Fifo.init_of_legal legal] at runs
    exact ⟨_, runs, rfl, Fifo.mem_abandonWindows_faults s _,
      Fifo.flags_of_zero rfl (size_ne_zero_of_legalConfig legal) rfl rfl rfl rfl⟩
  · intro illegal
    have runs := exec_init_toNat s base size
    rw [Fifo.init_of_not_legal illegal] at runs
    exact ⟨_, runs, rfl, Fifo.mem_abandonWindows_faults s _, (flagOutputsFollowTheViews p _).2 rfl⟩

end Sys2Proof.Machine
end

section
/-! Single-unit transfer (R98 to R101): what each command does in each of its cases, and what the outputs then show. -/

namespace Sys2Proof.Machine

variable {p : Params} {s : Fifo p} {byte : Byte}

/-! ## What the commands do -/

theorem exec_writeOne (s : Fifo p) (byte : Byte) :
    exec (.writeOne byte) ⟨p, s⟩ = .next ⟨p, s.whenConfigured .p (s.writeOne byte)⟩ := rfl

theorem exec_readOne (s : Fifo p) : exec .readOne ⟨p, s⟩ = .next ⟨p, s.whenConfigured .c s.readOne⟩ := rfl

theorem exec_peekOne (s : Fifo p) :
    exec .peekOne ⟨p, s⟩ = .next ⟨p, s.whenConfigured .c (s.respond .c s.frontResponse)⟩ := rfl

/-- WRITE_ONE without space (R99). -/
theorem Fifo.writeOne_of_full (full : s.freeP = 0) : s.writeOne byte = s.respond .p { status := .full } :=
  if_pos (beq_iff_eq.mpr full)

/-- WRITE_ONE with space (R99). -/
theorem Fifo.writeOne_of_room (room : s.freeP ≠ 0) :
    s.writeOne byte = { s with
      wc := s.wc + 1, mem := (s.memWrite (s.saddr s.wc) byte).mem,
      respP := s.respP ++ [{ status := .ok, value := 1 }] } :=
  if_neg (beq_iff_eq.not.mpr room)

/-- READ_ONE and PEEK_ONE on a view that holds nothing answer EMPTY (R100, R101). -/
theorem Fifo.frontResponse_of_empty (empty : s.usedC = 0) : s.frontResponse = { status := .empty } :=
  if_pos (beq_iff_eq.mpr empty)

/-- READ_ONE and PEEK_ONE on any other view answer the byte at RC (R100, R101). -/
theorem Fifo.frontResponse_of_some (some : s.usedC ≠ 0) :
    s.frontResponse = { status := .ok, value := 1, rdata := s.memRead (s.saddr s.rc) } :=
  if_neg (beq_iff_eq.not.mpr some)

/-- READ_ONE on a view that holds nothing takes nothing (R100). -/
theorem Fifo.readOne_of_empty (empty : s.usedC = 0) : s.readOne = s.respond .c s.frontResponse :=
  if_pos (beq_iff_eq.mpr empty)

/-- READ_ONE on any other view takes one byte (R100). -/
theorem Fifo.readOne_of_some (some : s.usedC ≠ 0) :
    s.readOne = { s with rc := s.rc + 1, respC := s.respC ++ [s.frontResponse] } :=
  if_neg (beq_iff_eq.not.mpr some)

/-- What the consumer would be answered does not depend on what it has been answered. -/
@[simp] theorem Fifo.frontResponse_respond (s : Fifo p) (r : Response p) :
    (s.respond .c r).frontResponse = s.frontResponse := rfl

/-! ## The outputs after one byte (R33) -/

/-- A count below another has a successor. -/
theorem Cursor.add_one_ne_zero {c d : Cursor p} (below : c < d) : c + 1 ≠ 0 := by
  intro wraps
  obtain rfl : c = BitVec.allOnes _ := (eq_neg_of_add_eq_zero_left wraps).trans BitVec.neg_one_eq_allOnes
  exact BitVec.not_allOnes_lt below

/-- A count one less is 0 when the count is 1. -/
theorem Cursor.sub_one_beq_zero (c : Cursor p) : (c - 1 == 0) = (c == 1) := by
  rw [Bool.eq_iff_iff, beq_iff_eq, beq_iff_eq, sub_eq_zero]

/-- The producer's outputs after one more byte. -/
theorem Fifo.flags_producer_setWc_succ (on : s.configured = true) :
    (s.setWc (s.wc + 1)).flags .producer =
      { used := s.usedP + 1, free := s.freeP - 1, full := s.freeP == 1, empty := s.usedP + 1 == 0 } := by
  have used : (s.setWc (s.wc + 1)).usedP = s.usedP + 1 := add_sub_right_comm s.wc 1 s.rcSync
  have free : (s.setWc (s.wc + 1)).freeP = s.freeP - 1 := by
    show s.capacity - (s.setWc (s.wc + 1)).usedP = s.capacity - s.usedP - 1
    rw [used, sub_add_eq_sub_sub]
  simp only [Fifo.flags, Fifo.setWc_configured, if_pos on, Fifo.fullOn, Fifo.emptyOn, Fifo.usedOn, Fifo.freeOn, used, free,
    Cursor.sub_one_beq_zero]

/-- The consumer's outputs after one byte less. -/
theorem Fifo.flags_consumer_setRc_succ (on : s.configured = true) :
    (s.setRc (s.rc + 1)).flags .consumer =
      { used := s.usedC - 1, free := s.freeC + 1, full := s.freeC + 1 == 0, empty := s.usedC == 1 } := by
  have used : (s.setRc (s.rc + 1)).usedC = s.usedC - 1 := sub_add_eq_sub_sub s.wcSync s.rc 1
  have free : (s.setRc (s.rc + 1)).freeC = s.freeC + 1 := by
    show s.capacity - (s.setRc (s.rc + 1)).usedC = s.capacity - s.usedC + 1
    rw [used, sub_sub_eq_add_sub, add_sub_right_comm]
  simp only [Fifo.flags, Fifo.setRc_configured, if_pos on, Fifo.fullOn, Fifo.emptyOn, Fifo.usedOn, Fifo.freeOn, used, free,
    Cursor.sub_one_beq_zero]

/-- A producer that sees space sees less used than CAPACITY. -/
theorem Fifo.ViewOk.usedP_lt (view : s.ViewOk) (room : s.freeP ≠ 0) : s.usedP < s.capacity := by
  have positive := BitVec.le_def.mp (Cursor.one_le room)
  rw [Cursor.one_toNat, view.freeP_toNat] at positive
  rw [BitVec.lt_def]
  omega

/-- A consumer that sees a byte sees less free than CAPACITY. -/
theorem Fifo.ViewOk.freeC_lt (view : s.ViewOk) (some : s.usedC ≠ 0) : s.freeC < s.capacity := by
  have := view.usedC_le_usedTrue
  have := view.usedP_toNat
  have := view.usedP_le
  have small : s.usedC ≤ s.capacity := BitVec.le_def.mpr (by omega)
  have positive := BitVec.le_def.mp (Cursor.one_le some)
  have free : s.freeC.toNat = s.capacity.toNat - s.usedC.toNat := BitVec.toNat_sub_of_le small
  rw [Cursor.one_toNat] at positive
  rw [BitVec.lt_def]
  omega

/-! ## The three commands -/

/-- Settles O25: the byte goes where WC points, and the two sides' outputs follow from WC alone. -/
theorem writeOneStoresTheByteOrAnswersFull : Obligations.WriteOneStoresTheByteOrAnswersFull := by
  intro p s byte
  refine ⟨fun off => ?_, fun on full => ?_, fun on room => ?_⟩
  · rw [exec_writeOne, Fifo.whenConfigured_of_unconfigured _ _ off]
  · rw [exec_writeOne, Fifo.whenConfigured_of_configured _ _ on, Fifo.writeOne_of_full full]
  · have runs := exec_writeOne s byte
    rw [Fifo.whenConfigured_of_configured _ _ on, Fifo.writeOne_of_room room] at runs
    have stored := s.memRead_memWrite (s.saddr s.wc) (v := byte)
    have outputs := Fifo.flags_producer_setWc_succ on
    refine ⟨_, runs, rfl, (stored _).trans (if_pos rfl), fun a other => (stored a).trans (if_neg other),
      congrArg FlagOutputs.used outputs, congrArg FlagOutputs.free outputs, ?_, fun _ view => ?_,
      (commandsLeaveTheOtherSidesFlags p _ s _ runs).1 rfl⟩
    · exact (congrArg (FlagOutputs.full · = true) outputs).to_iff.trans beq_iff_eq
    · exact (congrArg FlagOutputs.empty outputs).trans
        (beq_eq_false_iff_ne.mpr (Cursor.add_one_ne_zero (view.usedP_lt room)))

/-- Settles O26: the answer is `Fifo.frontResponse`, and the two sides' outputs follow from RC alone. -/
theorem readOneAnswersTheByteOrEmpty : Obligations.ReadOneAnswersTheByteOrEmpty := by
  intro p s
  refine ⟨fun off => ?_, fun on empty => ?_, fun on some => ?_⟩
  · rw [exec_readOne, Fifo.whenConfigured_of_unconfigured _ _ off]
  · rw [exec_readOne, Fifo.whenConfigured_of_configured _ _ on, Fifo.readOne_of_empty empty,
      Fifo.frontResponse_of_empty empty]
  · have runs := exec_readOne s
    rw [Fifo.whenConfigured_of_configured _ _ on, Fifo.readOne_of_some some, Fifo.frontResponse_of_some some] at runs
    have outputs := Fifo.flags_consumer_setRc_succ on
    refine ⟨_, runs, rfl, congrArg FlagOutputs.used outputs, congrArg FlagOutputs.free outputs, ?_, fun _ view => ?_,
      (commandsLeaveTheOtherSidesFlags p _ s _ runs).2 rfl⟩
    · exact (congrArg (FlagOutputs.empty · = true) outputs).to_iff.trans beq_iff_eq
    · exact (congrArg FlagOutputs.full outputs).trans
        (beq_eq_false_iff_ne.mpr (Cursor.add_one_ne_zero (view.freeC_lt some)))

/-- Settles O27: the peek's answer is `Fifo.frontResponse`, and it is what the READ_ONE after it answers too. -/
theorem peekOneAnswersTheByteReadOneWillTake : Obligations.PeekOneAnswersTheByteReadOneWillTake := by
  intro p s
  refine ⟨fun off => ?_, fun on empty => ?_, fun on some => ?_, fun t taken => ?_⟩
  · rw [exec_peekOne, Fifo.whenConfigured_of_unconfigured _ _ off]
  · rw [exec_peekOne, Fifo.whenConfigured_of_configured _ _ on, Fifo.frontResponse_of_empty empty]
  · rw [exec_peekOne, Fifo.whenConfigured_of_configured _ _ on, Fifo.frontResponse_of_some some]
    rfl
  · obtain rfl : _ = t := by simpa [exec_peekOne] using taken
    cases on : s.configured
    · refine ⟨_, { status := .notConfigured }, exec_readOne _, ?_⟩
      simp [Fifo.whenConfigured_of_unconfigured, on]
    · refine ⟨_, s.frontResponse, exec_readOne _, ?_⟩
      simp [Fifo.whenConfigured_of_configured, on]

end Sys2Proof.Machine
end

section
/-! Bulk transfer (R102 to R106): the two passes of the split copy are the copy in cursor order, and what each bulk command does
in each of its cases. -/

namespace Sys2Proof.Machine

variable {p : Params} {s : Fifo p} {c k n : Cursor p} {payload : List Byte}

/-! ## The split copy (R102) -/

/-- A bulk copy is that of its first bytes and then that of the others. -/
theorem Fifo.copyIn_append (s : Fifo p) (c : Cursor p) (first others : List Byte) :
    s.copyIn c (first ++ others) = (s.copyIn c first).copyIn (c + p.cursor first.length) others := by
  induction first generalizing s c with
  | nil => simp
  | cons byte first ih =>
    rw [List.cons_append, Fifo.copyIn_cons, Fifo.copyIn_cons, ih, cursor_succ, List.length_cons]

section
variable (on : s.configured = true) (config : s.ConfigOk)
include on config

/-- The run from a cursor to the end of storage, as a number (R16). -/
theorem Fifo.remainOf_toNat (c : Cursor p) :
    (remainOf s.capacity s.mask c).toNat = s.capacity.toNat - c.toNat % s.capacity.toNat := by
  have offset : (offOf s.mask c).toNat = c.toNat % s.capacity.toNat := Fifo.off_toNat on config c
  obtain ⟨_, isPower, _⟩ := legalConfig_iff.mp (config on).1
  have inside := Nat.mod_lt c.toNat (Nat.pos_of_isPowerOfTwo isPower)
  rw [remainOf, BitVec.toNat_sub_of_le (BitVec.le_def.mpr (offset.trans_le inside.le)), offset]

/-- The cursor that follows the run to the end of storage has offset 0. -/
theorem Fifo.offOf_add_remainOf (c : Cursor p) : offOf s.mask (c + remainOf s.capacity s.mask c) = 0 := by
  obtain ⟨_, isPower, _⟩ := legalConfig_iff.mp (config on).1
  have inside := Nat.mod_lt c.toNat (Nat.pos_of_isPowerOfTwo isPower)
  have offset : (offOf s.mask (c + remainOf s.capacity s.mask c)).toNat = 0 := by
    refine (Fifo.off_toNat on config _).trans ?_
    rw [BitVec.toNat_add, Nat.mod_mod_of_dvd _ (Fifo.capacity_dvd on config), Fifo.remainOf_toNat on config, ← Nat.mod_add_mod,
      Nat.add_sub_cancel' inside.le, Nat.mod_self]
  exact BitVec.eq_of_toNat_eq offset

/-- After the end of storage the cursors go on from its head. -/
theorem Fifo.runsAlong_poolBase (c : Cursor p) {k : Nat} (fits : k ≤ s.capacity.toNat) :
    s.RunsAlong (c + remainOf s.capacity s.mask c) s.poolBase k := by
  have offset := Fifo.offOf_add_remainOf on config c
  have head : s.saddr (c + remainOf s.capacity s.mask c) = s.poolBase := by simp [Fifo.saddr, saddrOf, offset]
  rw [← head]
  exact Fifo.runsAlong_of_le_remain on config _ (by rwa [remainOf, offset, sub_zero])

/-- Writing in at most two passes is writing in cursor order. -/
theorem Fifo.splitCopyIn_eq_copyIn (c : Cursor p) {bytes : List Byte} (fits : bytes.length ≤ s.capacity.toNat) :
    s.splitCopyIn c bytes = s.copyIn c bytes := by
  simp only [Fifo.splitCopyIn]
  split_ifs with whole
  · exact (Fifo.copyIn_eq_writeRun (Fifo.runsAlong_of_le_remain on config c whole)).symm
  · generalize tail : remainOf s.capacity s.mask c = remain at whole
    have length : (bytes.take remain.toNat).length = remain.toNat := List.length_take_of_le (by omega)
    have first : s.copyIn c (bytes.take remain.toNat) = s.writeRun (s.saddr c) (bytes.take remain.toNat) :=
      Fifo.copyIn_eq_writeRun (Fifo.runsAlong_of_le_remain on config c (by rw [length, tail]))
    have along : s.RunsAlong (c + remain) s.poolBase (bytes.drop remain.toNat).length :=
      tail ▸ Fifo.runsAlong_poolBase on config c (by rw [List.length_drop]; omega)
    have second : (s.copyIn c (bytes.take remain.toNat)).RunsAlong (c + remain) s.poolBase (bytes.drop remain.toNat).length :=
      fun i small => (Fifo.saddr_congr (by simp) (by simp) _).trans (along i small)
    conv_rhs => rw [← bytes.take_append_drop remain.toNat]
    rw [Fifo.copyIn_append, length, Params.cursor_toNat, Fifo.copyIn_eq_writeRun second, first]

/-- Reading in at most two passes is reading in cursor order. -/
theorem Fifo.splitCopyOut_eq_copyOut (c : Cursor p) {k : Nat} (fits : k ≤ s.capacity.toNat) :
    s.splitCopyOut c k = s.copyOut c k := by
  simp only [Fifo.splitCopyOut]
  split_ifs with whole
  · exact (Fifo.copyOut_eq_readRun (Fifo.runsAlong_of_le_remain on config c whole)).symm
  · have first := Fifo.copyOut_eq_readRun (Fifo.runsAlong_of_le_remain on config c le_rfl)
    have second := Fifo.copyOut_eq_readRun (Fifo.runsAlong_poolBase on config c
      (k := k - (remainOf s.capacity s.mask c).toNat) (by omega))
    conv_rhs => rw [← Nat.add_sub_cancel' (le_of_not_ge whole)]
    rw [Fifo.copyOut_append, Params.cursor_toNat, first, second]

end

/-- Settles O28: each pass follows one run of addresses, the second from the head of storage on. -/
theorem splitCopyIsTheCopyInCursorOrder : Obligations.SplitCopyIsTheCopyInCursorOrder :=
  fun _ _ c on config => ⟨fun _ => Fifo.splitCopyIn_eq_copyIn on config c, fun _ => Fifo.splitCopyOut_eq_copyOut on config c,
    fun _ _ => Fifo.saddr_injective_of_lt_capacity on config c⟩

/-! ## What the commands do -/

/-- A WRITE_BULK with the payload it announces runs (R73, R103). -/
theorem exec_writeBulk (s : Fifo p) (carried : payload.length = n.toNat) :
    exec (.writeBulk n.toNat payload) ⟨p, s⟩ = .next ⟨p, s.whenConfigured .p (s.writeBulk n payload)⟩ := by
  rw [exec, execWriteBulk_of_payloadFits ((payloadFits_toNat n payload).mpr carried), Params.cursor_toNat]

/-- A WRITE_BULK_TRUNC with the payload it announces runs (R73, R104). -/
theorem exec_writeBulkTrunc (s : Fifo p) (carried : payload.length = n.toNat) :
    exec (.writeBulkTrunc n.toNat payload) ⟨p, s⟩ =
      .next ⟨p, s.whenConfigured .p (s.writeBytes (minOf n s.freeP) payload)⟩ := by
  rw [exec, execWriteBulkTrunc_of_payloadFits ((payloadFits_toNat n payload).mpr carried), Params.cursor_toNat]

/-- A READ_BULK runs (R106). -/
theorem exec_readBulk (s : Fifo p) (n : Cursor p) :
    exec (.readBulk n.toNat) ⟨p, s⟩ = .next ⟨p, s.whenConfigured .c (s.readBulk n)⟩ := by
  rw [exec, execReadBulk, Params.cursor_toNat]
  rfl

/-- WRITE_BULK of more than the producer sees free stores nothing (R103). -/
theorem Fifo.writeBulk_of_full (full : s.freeP < n) : s.writeBulk n payload = s.respond .p { status := .full } := if_pos full

/-- WRITE_BULK of no more than that stores it all (R103). -/
theorem Fifo.writeBulk_of_room (room : n ≤ s.freeP) : s.writeBulk n payload = s.writeBytes n payload :=
  if_neg (BitVec.not_lt.mpr room)

/-- READ_BULK of more than the consumer sees takes nothing (R106). -/
theorem Fifo.readBulk_of_empty (empty : s.usedC < n) : s.readBulk n = s.respond .c { status := .empty } := if_pos empty

/-- READ_BULK of no more than that takes it all (R106). -/
theorem Fifo.readBulk_of_there (there : n ≤ s.usedC) :
    s.readBulk n = { s with
      rc := s.rc + n, respC := s.respC ++ [{ status := .ok, value := n, payload := s.copyOut s.rc n.toNat }] } :=
  if_neg (BitVec.not_lt.mpr there)

/-! ## Memory after a bulk write (R65) -/

/-- What is read after a bulk write of `k` bytes is read after the copy of the first `k` payload bytes. -/
theorem Fifo.writeBytes_memRead (s : Fifo p) (k : Cursor p) (payload : List Byte) (a : Addr p) :
    (s.writeBytes k payload).memRead a = (s.copyIn s.wc (payload.take k.toNat)).memRead a :=
  Fifo.memRead_congr (by rw [Fifo.writeBytes_eq]) a

/-- A bulk write of `k` bytes leaves every byte alone but those of the `k` cursors from WC on. -/
theorem Fifo.writeBytes_memRead_other {a : Addr p} (outside : ∀ i < k.toNat, a ≠ s.saddr (s.wc + p.cursor i)) :
    (s.writeBytes k payload).memRead a = s.memRead a := by
  rw [Fifo.writeBytes_memRead]
  exact s.copyIn_memRead_other s.wc _ a fun i small => outside i (small.trans_le (List.length_take_le _ _))

/-- A bulk write of `k` bytes, no more than CAPACITY, stores byte `i` of them at the storage byte of cursor WC + `i`. -/
theorem Fifo.writeBytes_memRead_at (on : s.configured = true) (config : s.ConfigOk) (fits : k.toNat ≤ s.capacity.toNat)
    {i : Nat} (inside : i < k.toNat) (small : i < payload.length) :
    (s.writeBytes k payload).memRead (s.saddr (s.wc + p.cursor i)) = payload[i] := by
  have length : (payload.take k.toNat).length ≤ k.toNat := List.length_take_le _ _
  rw [Fifo.writeBytes_memRead]
  refine (s.copyIn_memRead_at s.wc _ (fun i _ j _ => ?_) i (by rw [List.length_take]; omega)).trans List.getElem_take
  exact Fifo.saddr_injective_of_lt_capacity on config s.wc (by omega) (by omega)

/-! ## The outputs after a bulk transfer (R33) -/

/-- Two counts are equal when their difference is 0. -/
theorem Cursor.sub_beq_zero (c k : Cursor p) : (c - k == 0) = (k == c) := by
  rw [Bool.eq_iff_iff, beq_iff_eq, beq_iff_eq, sub_eq_zero, eq_comm]

/-- Counts that fit in a cursor together add up to 0 only when both are 0. -/
theorem Cursor.add_ne_zero (fits : c.toNat + k.toNat < 2 ^ p.cursorW) (some : k ≠ 0) : c + k ≠ 0 := by
  intro none
  have positive := BitVec.le_def.mp (Cursor.one_le some)
  have sum := BitVec.toNat_add_of_lt fits
  have zero : (c + k).toNat = 0 := by simp [none]
  rw [Cursor.one_toNat] at positive
  omega

/-- The producer's outputs after a bulk write of `k` bytes. -/
theorem Fifo.flags_producer_writeBytes (on : s.configured = true) (k : Cursor p) (payload : List Byte) :
    (s.writeBytes k payload).flags .producer =
      { used := s.usedP + k, free := s.freeP - k, full := k == s.freeP, empty := s.usedP + k == 0 } := by
  rw [Fifo.writeBytes_eq]
  show (s.setWc (s.wc + k)).flags .producer = _
  have used : (s.setWc (s.wc + k)).usedP = s.usedP + k := add_sub_right_comm s.wc k s.rcSync
  have free : (s.setWc (s.wc + k)).freeP = s.freeP - k := by
    show s.capacity - (s.setWc (s.wc + k)).usedP = s.capacity - s.usedP - k
    rw [used, sub_add_eq_sub_sub]
  simp only [Fifo.flags, Fifo.setWc_configured, if_pos on, Fifo.fullOn, Fifo.emptyOn, Fifo.usedOn, Fifo.freeOn, used, free,
    Cursor.sub_beq_zero]

/-- The consumer's outputs after `k` bytes less. -/
theorem Fifo.flags_consumer_setRc_add (on : s.configured = true) (k : Cursor p) :
    (s.setRc (s.rc + k)).flags .consumer =
      { used := s.usedC - k, free := s.freeC + k, full := s.freeC + k == 0, empty := k == s.usedC } := by
  have used : (s.setRc (s.rc + k)).usedC = s.usedC - k := sub_add_eq_sub_sub s.wcSync s.rc k
  have free : (s.setRc (s.rc + k)).freeC = s.freeC + k := by
    show s.capacity - (s.setRc (s.rc + k)).usedC = s.capacity - s.usedC + k
    rw [used, sub_sub_eq_add_sub, add_sub_right_comm]
  simp only [Fifo.flags, Fifo.setRc_configured, if_pos on, Fifo.fullOn, Fifo.emptyOn, Fifo.usedOn, Fifo.freeOn, used, free,
    Cursor.sub_beq_zero]

/-- A producer that stores within the space it sees then sees something used. -/
theorem Fifo.ViewOk.usedP_add_ne_zero (view : s.ViewOk) (room : k ≤ s.freeP) (some : k ≠ 0) : s.usedP + k ≠ 0 := by
  have := view.usedP_le
  have := view.freeP_toNat
  have := BitVec.le_def.mp room
  have := s.capacity.isLt
  exact Cursor.add_ne_zero (by omega) some

/-- The consumer sees CAPACITY less what it sees used, without a wrap. -/
theorem Fifo.ViewOk.usedC_add_freeC (view : s.ViewOk) : s.usedC.toNat + s.freeC.toNat = s.capacity.toNat := by
  have := view.usedC_le_usedTrue
  have := view.usedP_toNat
  have := view.usedP_le
  have small : s.usedC.toNat ≤ s.capacity.toNat := by omega
  have free : s.freeC.toNat = s.capacity.toNat - s.usedC.toNat := BitVec.toNat_sub_of_le (BitVec.le_def.mpr small)
  omega

/-- A consumer that takes within what it sees used then sees something free. -/
theorem Fifo.ViewOk.freeC_add_ne_zero (view : s.ViewOk) (there : k ≤ s.usedC) (some : k ≠ 0) : s.freeC + k ≠ 0 := by
  have := view.usedC_add_freeC
  have := BitVec.le_def.mp there
  have := s.capacity.isLt
  exact Cursor.add_ne_zero (by omega) some

/-- What the producer's outputs say of a bulk write within the space it sees (R33, R103, R104). -/
theorem Fifo.producer_outputs_writeBytes (on : s.configured = true) (room : k ≤ s.freeP) (payload : List Byte) :
    ((s.writeBytes k payload).flags .producer).used = s.usedP + k ∧
    ((s.writeBytes k payload).flags .producer).free = s.freeP - k ∧
    (((s.writeBytes k payload).flags .producer).full = true ↔ k = s.freeP) ∧
    (s.ConfigOk → s.ViewOk → k ≠ 0 → ((s.writeBytes k payload).flags .producer).empty = false) := by
  rw [Fifo.flags_producer_writeBytes on]
  exact ⟨rfl, rfl, beq_iff_eq, fun _ view some => beq_eq_false_iff_ne.mpr (view.usedP_add_ne_zero room some)⟩

/-! ## The three commands -/

/-- Settles O29: the bytes go where the cursors from WC on point, and the two sides' outputs follow from WC alone. -/
theorem writeBulkStoresAllOrNothing : Obligations.WriteBulkStoresAllOrNothing := by
  intro p s n payload carried
  have runs := exec_writeBulk s carried
  refine ⟨fun off => ?_, fun on full => ?_, fun _ view large => ?_, fun on notFull => ?_⟩
  · rw [runs, Fifo.whenConfigured_of_unconfigured _ _ off]
  · rw [runs, Fifo.whenConfigured_of_configured _ _ on, Fifo.writeBulk_of_full full]
  · have free : s.freeP.toNat ≤ s.capacity.toNat := view.freeP_toNat.trans_le (Nat.sub_le _ _)
    exact BitVec.lt_def.mpr (free.trans_lt (BitVec.lt_def.mp large))
  · have room : n ≤ s.freeP := BitVec.not_lt.mp notFull
    rw [Fifo.whenConfigured_of_configured _ _ on, Fifo.writeBulk_of_room room] at runs
    obtain ⟨used, free, full, empty⟩ := Fifo.producer_outputs_writeBytes on room payload
    exact ⟨_, runs, Fifo.writeBytes_eq s n payload, fun _ => Fifo.writeBytes_memRead_other,
      fun config fits _ small => Fifo.writeBytes_memRead_at on config fits (small.trans_eq carried) small,
      used, free, full, empty, (commandsLeaveTheOtherSidesFlags p _ s _ runs).1 rfl⟩

/-- Settles O30: the count is the smaller of `n` and `free_P`, and that many bytes are stored as WRITE_BULK stores them. -/
theorem writeBulkTruncStoresWhatFits : Obligations.WriteBulkTruncStoresWhatFits := by
  intro p s n k payload carried count
  obtain rfl : k = minOf n s.freeP := BitVec.eq_of_toNat_eq (count.trans (minOf_toNat n s.freeP).symm)
  have runs := exec_writeBulkTrunc s carried
  refine ⟨fun off => ?_, fun on => ?_⟩
  · rw [runs, Fifo.whenConfigured_of_unconfigured _ _ off]
  · rw [Fifo.whenConfigured_of_configured _ _ on] at runs
    obtain ⟨used, free, full, empty⟩ := Fifo.producer_outputs_writeBytes on (minOf_le_right n s.freeP) payload
    exact ⟨_, runs, Fifo.writeBytes_eq s _ payload, fun _ => Fifo.writeBytes_memRead_other,
      fun config fits _ small inside => Fifo.writeBytes_memRead_at on config fits inside small,
      used, free, full, empty, (commandsLeaveTheOtherSidesFlags p _ s _ runs).1 rfl⟩

/-- Settles O31: the answer is the copy from RC on, and the two sides' outputs follow from RC alone. -/
theorem readBulkAnswersAllOrNothing : Obligations.ReadBulkAnswersAllOrNothing := by
  intro p s n
  have runs := exec_readBulk s n
  refine ⟨fun off => ?_, fun on empty => ?_, fun on notEmpty => ?_⟩
  · rw [runs, Fifo.whenConfigured_of_unconfigured _ _ off]
  · rw [runs, Fifo.whenConfigured_of_configured _ _ on, Fifo.readBulk_of_empty empty]
  · have there : n ≤ s.usedC := BitVec.not_lt.mp notEmpty
    rw [Fifo.whenConfigured_of_configured _ _ on, Fifo.readBulk_of_there there] at runs
    have outputs := Fifo.flags_consumer_setRc_add on n
    refine ⟨_, s.copyOut s.rc n.toNat, runs, rfl, s.copyOut_length _ _, fun i _ => ?_, congrArg FlagOutputs.used outputs,
      congrArg FlagOutputs.free outputs, ?_, fun _ view some => ?_, (commandsLeaveTheOtherSidesFlags p _ s _ runs).2 rfl⟩
    · simp only [Fifo.copyOut_eq_map, List.getElem_map, List.getElem_range]
    · exact (congrArg (FlagOutputs.empty · = true) outputs).to_iff.trans beq_iff_eq
    · exact (congrArg FlagOutputs.full outputs).trans (beq_eq_false_iff_ne.mpr (view.freeC_add_ne_zero there some))

end Sys2Proof.Machine
end

section
/-! Linear windows (R107 to R114): where a window lies, what opening one answers, and what a finish commits and records. -/

namespace Sys2Proof.Machine

variable {p : Params} {s : Fifo p}

/-! ## Where a window lies (R107) -/

section
variable (on : s.configured = true) (config : s.ConfigOk)
include on config

/-- An offset, as a number, is less than CAPACITY (R23). -/
theorem Fifo.offset_lt_capacity (c : Cursor p) : c.toNat % s.capacity.toNat < s.capacity.toNat := by
  obtain ⟨_, isPower, _⟩ := legalConfig_iff.mp (config on).1
  exact Nat.mod_lt _ (Nat.pos_of_isPowerOfTwo isPower)

/-- The run to the end of storage is never empty, since an offset is less than CAPACITY. -/
theorem Fifo.one_le_remainOf (c : Cursor p) : 1 ≤ (remainOf s.capacity s.mask c).toNat := by
  rw [Fifo.remainOf_toNat on config]
  exact Nat.sub_pos_of_lt (Fifo.offset_lt_capacity on config c)

/-- The run to the end of storage is no longer than storage. -/
theorem Fifo.remainOf_le_capacity (c : Cursor p) : (remainOf s.capacity s.mask c).toNat ≤ s.capacity.toNat := by
  rw [Fifo.remainOf_toNat on config]
  exact Nat.sub_le _ _

/-- The run from a cursor's storage address ends where storage ends: the offset the one has gained the other has lost. -/
theorem Fifo.saddr_add_remainOf (c : Cursor p) :
    (s.saddr c).toNat + (remainOf s.capacity s.mask c).toNat = s.poolBase.toNat + s.capacity.toNat := by
  rw [Fifo.saddr_toNat on config, Fifo.remainOf_toNat on config, Nat.add_assoc,
    Nat.add_sub_cancel' (Fifo.offset_lt_capacity on config c).le]

end

/-- Settles O35: the window at a cursor is the run to the end of storage from that cursor's storage address. -/
theorem windowsEndWhereStorageEnds : Obligations.WindowsEndWhereStorageEnds := fun _ _ c on config =>
  ⟨Fifo.one_le_remainOf on config c, Fifo.remainOf_le_capacity on config c, Fifo.inStorage_saddr on config c,
    Fifo.saddr_add_remainOf on config c⟩

/-! ## What the commands do -/

theorem exec_lwRegion (s : Fifo p) : exec .lwRegion ⟨p, s⟩ = .next ⟨p, s.whenConfigured .p s.openedIn⟩ := rfl

theorem exec_lrRegion (s : Fifo p) : exec .lrRegion ⟨p, s⟩ = .next ⟨p, s.whenConfigured .c s.openedOut⟩ := rfl

theorem exec_lwRemaining (s : Fifo p) :
    exec .lwRemaining ⟨p, s⟩ = .next ⟨p, s.whenConfigured .p (s.respond .p { status := .ok, value := s.remainIn })⟩ := rfl

theorem exec_lrRemaining (s : Fifo p) :
    exec .lrRemaining ⟨p, s⟩ = .next ⟨p, s.whenConfigured .c (s.respond .c { status := .ok, value := s.remainOut })⟩ := rfl

/-- LW_FINISH records the broken duties and commits all the same (R111). -/
theorem exec_lwFinish (s : Fifo p) (n : Cursor p) :
    exec (.lwFinish n.toNat) ⟨p, s⟩ = .next ⟨p, s.whenConfigured .p ((s.checkLwFinish n).finishedIn n)⟩ := by
  rw [exec, execLwFinish, Params.cursor_toNat, State.next_mk, Fifo.finishedIn, Fifo.checkLwFinish_wc]

/-- LR_FINISH records the broken duties and releases all the same (R114). -/
theorem exec_lrFinish (s : Fifo p) (n : Cursor p) :
    exec (.lrFinish n.toNat) ⟨p, s⟩ = .next ⟨p, s.whenConfigured .c ((s.checkLrFinish n).finishedOut n)⟩ := by
  rw [exec, execLrFinish, Params.cursor_toNat, State.next_mk, Fifo.finishedOut, Fifo.checkLrFinish_rc]

/-! ## Opening a window (R109, R110, R112, R113) -/

/-- Opening a window moves nothing the outputs are computed from. -/
theorem Fifo.flags_openedIn (side : Side) : s.openedIn.flags side = s.flags side := by
  cases side with
  | producer => exact Fifo.flags_producer_congr ⟨rfl, rfl, rfl, rfl⟩ rfl rfl
  | consumer => exact Fifo.flags_consumer_congr ⟨rfl, rfl, rfl, rfl⟩ rfl rfl

/-- Opening a window moves nothing the outputs are computed from. -/
theorem Fifo.flags_openedOut (side : Side) : s.openedOut.flags side = s.flags side := by
  cases side with
  | producer => exact Fifo.flags_producer_congr ⟨rfl, rfl, rfl, rfl⟩ rfl rfl
  | consumer => exact Fifo.flags_consumer_congr ⟨rfl, rfl, rfl, rfl⟩ rfl rfl

/-- Settles O33: the answer is the window at WC, which is never empty. -/
theorem writeWindowRunsFromTheWriteCursor : Obligations.WriteWindowRunsFromTheWriteCursor := by
  intro p s
  rw [exec_lwRegion, exec_lwRemaining]
  refine ⟨fun off => ?_, fun on => ?_⟩
  · simp only [Fifo.whenConfigured_of_unconfigured _ _ off, and_self]
  · simp only [Fifo.whenConfigured_of_configured _ _ on]
    exact ⟨⟨_, rfl, rfl, Fifo.flags_openedIn⟩, rfl, fun config => Fifo.one_le_remainOf on config s.wc⟩

/-- Settles O34: the answer is the window at RC, which is never empty. -/
theorem readWindowRunsFromTheReadCursor : Obligations.ReadWindowRunsFromTheReadCursor := by
  intro p s
  rw [exec_lrRegion, exec_lrRemaining]
  refine ⟨fun off => ?_, fun on => ?_⟩
  · simp only [Fifo.whenConfigured_of_unconfigured _ _ off, and_self]
  · simp only [Fifo.whenConfigured_of_configured _ _ on]
    exact ⟨⟨_, rfl, rfl, Fifo.flags_openedOut⟩, rfl, fun config => Fifo.one_le_remainOf on config s.rc⟩

/-! ## Finishing a window (R111, R114) -/

/-- A conditional record writes FAULTS and nothing else (R15). -/
theorem Fifo.raiseIf_eq (s : Fifo p) (condition : Bool) (kind : ModelFault) :
    s.raiseIf condition kind = { s with faults := (s.raiseIf condition kind).faults } := by
  cases condition <;> rfl

/-- The check of the producer's duties writes FAULTS and nothing else (R108). -/
theorem Fifo.checkLwFinish_eq (s : Fifo p) (n : Cursor p) :
    s.checkLwFinish n = { s with faults := (s.checkLwFinish n).faults } := by
  rw [Fifo.checkLwFinish, Fifo.raiseIf_eq s, Fifo.raiseIf_eq]

/-- The check of the consumer's duties writes FAULTS and nothing else (R108). -/
theorem Fifo.checkLrFinish_eq (s : Fifo p) (n : Cursor p) :
    s.checkLrFinish n = { s with faults := (s.checkLrFinish n).faults } := by
  rw [Fifo.checkLrFinish, Fifo.raiseIf_eq s, Fifo.raiseIf_eq]

/-- What LW_FINISH leaves: WC moved, the window closed, the broken duties recorded, and the rest as it was (R111). -/
theorem Fifo.finishedIn_checkLwFinish (s : Fifo p) (n : Cursor p) :
    (s.checkLwFinish n).finishedIn n = { s with
      wc := s.wc + n, lwOpen := false, faults := (s.checkLwFinish n).faults, respP := s.respP ++ [{ status := .ok }] } := by
  rw [Fifo.checkLwFinish_eq]
  rfl

/-- What LR_FINISH leaves: RC moved, the window closed, the broken duties recorded, and the rest as it was (R114). -/
theorem Fifo.finishedOut_checkLrFinish (s : Fifo p) (n : Cursor p) :
    (s.checkLrFinish n).finishedOut n = { s with
      rc := s.rc + n, lrOpen := false, faults := (s.checkLrFinish n).faults, respC := s.respC ++ [{ status := .ok }] } := by
  rw [Fifo.checkLrFinish_eq]
  rfl

/-- The producer's outputs after `n` bytes more are those a bulk write of `n` bytes leaves: memory has no part in them. -/
theorem Fifo.flags_producer_setWc_add (on : s.configured = true) (n : Cursor p) :
    (s.setWc (s.wc + n)).flags .producer =
      { used := s.usedP + n, free := s.freeP - n, full := n == s.freeP, empty := s.usedP + n == 0 } := by
  rw [← Fifo.flags_producer_writeBytes on n [], Fifo.writeBytes_eq]
  rfl

/-- Settles O36: the duties are checked first and WC moves whatever they say. -/
theorem writeFinishCommitsUncheckedAndRecordsBrokenDuties : Obligations.WriteFinishCommitsUncheckedAndRecordsBrokenDuties := by
  intro p s n
  have runs := exec_lwFinish s n
  refine ⟨fun off => ?_, fun on => ?_⟩
  · rw [runs, Fifo.whenConfigured_of_unconfigured _ _ off]
  · rw [Fifo.whenConfigured_of_configured _ _ on, Fifo.finishedIn_checkLwFinish] at runs
    have outputs := Fifo.flags_producer_setWc_add on n
    exact ⟨_, runs, rfl, s.mem_checkLwFinish_faults n, congrArg FlagOutputs.used outputs, congrArg FlagOutputs.free outputs,
      (commandsLeaveTheOtherSidesFlags p _ s _ runs).1 rfl⟩

/-- Settles O37: the duties are checked first and RC moves whatever they say. -/
theorem readFinishReleasesUncheckedAndRecordsBrokenDuties : Obligations.ReadFinishReleasesUncheckedAndRecordsBrokenDuties := by
  intro p s n
  have runs := exec_lrFinish s n
  refine ⟨fun off => ?_, fun on => ?_⟩
  · rw [runs, Fifo.whenConfigured_of_unconfigured _ _ off]
  · rw [Fifo.whenConfigured_of_configured _ _ on, Fifo.finishedOut_checkLrFinish] at runs
    have outputs := Fifo.flags_consumer_setRc_add on n
    exact ⟨_, runs, rfl, s.mem_checkLrFinish_faults n, congrArg FlagOutputs.used outputs, congrArg FlagOutputs.free outputs,
      (commandsLeaveTheOtherSidesFlags p _ s _ runs).2 rfl⟩

end Sys2Proof.Machine
end

section
/-! The RESET command (R115, R116): the state it leaves and why both views of that state are empty. -/

namespace Sys2Proof.Machine

variable {p : Params} {s : Fifo p}

/-- On a configured core RESET abandons the windows and zeroes the cursors, in one step (R115). -/
theorem exec_reset (s : Fifo p) :
    exec .reset ⟨p, s⟩ = .next ⟨p, s.whenConfigured .k
      ((s.abandonWindows .resetWithOpenWindow).zeroCursors.respond .k { status := .ok })⟩ := rfl

/-- What RESET leaves: every cursor and copy 0, the windows closed, an open one recorded, and the rest as it was (R115). -/
theorem Fifo.zeroCursors_abandonWindows_respond (s : Fifo p) (r : Response p) :
    (s.abandonWindows .resetWithOpenWindow).zeroCursors.respond .k r = { s with
      wc := 0, rc := 0, rcSync := 0, wcSync := 0, lwOpen := false, lrOpen := false,
      faults := (s.abandonWindows .resetWithOpenWindow).faults, respK := s.respK ++ [r] } := by
  rw [Fifo.abandonWindows_eq]
  rfl

/-- With every cursor 0 a side sees nothing stored and all of CAPACITY free, whatever CAPACITY is (R116). -/
theorem Fifo.usedOn_and_freeOn_of_zero (wc : s.wc = 0) (rc : s.rc = 0) (rcSync : s.rcSync = 0) (wcSync : s.wcSync = 0)
    (side : Side) : s.usedOn side = 0 ∧ s.freeOn side = s.capacity := by
  have used : s.usedOn side = 0 := by
    cases side with
    | producer => simp [Fifo.usedOn, Fifo.usedP, usedOf, wc, rcSync]
    | consumer => simp [Fifo.usedOn, Fifo.usedC, usedOf, wcSync, rc]
  exact ⟨used, by rw [Fifo.freeOn_eq, used, sub_zero]⟩

/-- Settles O23: all four cursors are 0 at once, so both views are empty, and a legal configuration has a capacity to show free. -/
theorem resetEmptiesBothViews : Obligations.ResetEmptiesBothViews := by
  intro p s
  have runs := exec_reset s
  refine ⟨fun off => ?_, fun on => ?_⟩
  · rw [runs, Fifo.whenConfigured_of_unconfigured _ _ off]
  · rw [Fifo.whenConfigured_of_configured _ _ on, Fifo.zeroCursors_abandonWindows_respond] at runs
    exact ⟨_, runs, rfl, Fifo.mem_abandonWindows_faults s _, sub_self 0, Fifo.usedOn_and_freeOn_of_zero rfl rfl rfl rfl,
      fun config => Fifo.flags_of_zero on (size_ne_zero_of_legalConfig (config on).1) rfl rfl rfl rfl⟩

end Sys2Proof.Machine
end

section
/-! The two crossings (R117 to R122), treated as one: each copies a cursor to the other side. What a crossing's
step does, and how a run ends (R153). -/

namespace Sys2Proof.Machine

variable {p : Params} {s t : Fifo p}

/-- The two crossings (R117). -/
inductive Crossing where
  /-- X_R2P (R118). -/
  | r2p
  /-- X_W2C (R119). -/
  | w2c

/-- The crossing's agent step. -/
def Crossing.move : Crossing → AgentStep p
  | .r2p => .crossR2P
  | .w2c => .crossW2C

/-- The cursor the crossing reads. -/
def Crossing.cursor (s : Fifo p) : Crossing → Cursor p
  | .r2p => s.rc
  | .w2c => s.wc

/-- The copy of that cursor the crossing writes. -/
def Crossing.copy (s : Fifo p) : Crossing → Cursor p
  | .r2p => s.rcSync
  | .w2c => s.wcSync

variable {x : Crossing}

/-- A crossing is enabled exactly when its copy differs from its cursor (R118, R119). -/
theorem Crossing.enables_iff : s.enables x.move = true ↔ x.copy s ≠ x.cursor s := by
  cases x <;> exact bne_iff_ne

/-- A crossing's step finds a copy that differs from its cursor and makes it equal; the cursor stays (R118, R119). -/
theorem Crossing.of_agentStep (taken : agentStep ⟨p, s⟩ x.move = .next ⟨p, t⟩) :
    x.copy s ≠ x.cursor s ∧ x.copy t = x.cursor t ∧ x.cursor t = x.cursor s := by
  refine ⟨Crossing.enables_iff.mp (enables_of_agentStep taken), ?_⟩
  cases x with
  | r2p => obtain ⟨_, rfl⟩ := agentStep_crossR2P_iff.mp taken; exact ⟨rfl, rfl⟩
  | w2c => obtain ⟨_, rfl⟩ := agentStep_crossW2C_iff.mp taken; exact ⟨rfl, rfl⟩

/-- Settles O40: the step is the crossing's copy, and the outputs are computed from the registers it leaves. -/
theorem crossingsCopyTheWholeCursor : Obligations.CrossingsCopyTheWholeCursor := fun _ _ _ =>
  ⟨bne_iff_ne, bne_iff_ne,
    fun oldest enabled => ⟨_, step_of_oldest oldest (agentStep_crossR2P_iff.mpr ⟨enabled, rfl⟩), rfl, rfl, rfl⟩,
    fun oldest enabled => ⟨_, step_of_oldest oldest (agentStep_crossW2C_iff.mpr ⟨enabled, rfl⟩), rfl, rfl, rfl⟩⟩

/-- An agent step that is not enabled has no step, and as the oldest in the list it is passed over (R118, R119; log 5). -/
theorem no_step_of_disabled {move : AgentStep p} {rest : List (AgentStep p)} (disabled : s.enables move = false) :
    (∀ t, agentStep ⟨p, s⟩ move ≠ .next t) ∧
      (s.inputs = move :: rest → step ⟨p, s⟩ = step ⟨p, { s with inputs := rest }⟩) :=
  ⟨fun _ taken => Bool.false_ne_true (disabled.symm.trans (enables_of_agentStep taken)),
    fun oldest => step_of_disabled oldest disabled⟩

/-- Settles O41: a crossing is no exception among the agent steps. -/
theorem disabledCrossingsHaveNoStep : Obligations.DisabledCrossingsHaveNoStep := fun _ _ _ =>
  ⟨no_step_of_disabled (move := .crossR2P), no_step_of_disabled (move := .crossW2C)⟩

/-- Settles O48: each view differs from the truth only in the copy it reads. -/
theorem synchronisedViewsAgree : Obligations.SynchronisedViewsAgree := by
  rintro p s ⟨rcSync, wcSync⟩
  simp only [Fifo.usedP, Fifo.usedC, Fifo.freeP, Fifo.freeC, Fifo.usedTrue, rcSync, wcSync, and_self]

/-! ## The end of a run (R153) -/

/-- A state is synchronised exactly when neither crossing is enabled (R122). -/
theorem Fifo.synchronised_iff : s.Synchronised ↔ s.r2pEnabled = false ∧ s.w2cEnabled = false :=
  and_congr bne_eq_false_iff_eq.symm bne_eq_false_iff_eq.symm

/-- No agent step is due exactly when the list holds nothing but crossings that are not enabled. -/
theorem Fifo.due_eq_nil_iff : s.due = [] ↔ ∀ move ∈ s.inputs, s.enables move = false := by
  simp [Fifo.due, List.dropWhile_eq_nil_iff]

/-- In a synchronised state the agent steps that are not enabled are the crossings. -/
theorem Fifo.Synchronised.enables_eq_false_iff (synced : s.Synchronised) {move : AgentStep p} :
    s.enables move = false ↔ move = .crossR2P ∨ move = .crossW2C := by
  obtain ⟨r2p, w2c⟩ := Fifo.synchronised_iff.mp synced
  cases move <;> simp [Fifo.enables, r2p, w2c]

/-- The run has ended when only crossings are listed and the state is synchronised (R153). -/
theorem Fifo.runEnded_iff :
    s.RunEnded ↔ (∀ move ∈ s.inputs, move = .crossR2P ∨ move = .crossW2C) ∧ s.Synchronised := by
  rw [Fifo.RunEnded, ← Fifo.synchronised_iff, Fifo.due_eq_nil_iff]
  exact and_congr_left fun synced => forall₂_congr fun _ _ => Fifo.Synchronised.enables_eq_false_iff synced

/-- With nothing listed, a synchronised state is an ended one. -/
theorem Fifo.Synchronised.runEnded (synced : s.Synchronised) (empty : s.inputs = []) : s.RunEnded :=
  Fifo.runEnded_iff.mpr ⟨by simp [empty], synced⟩

/-- There is an observation exactly after the end of a run that kept the contract (R129, R153). -/
theorem Fifo.observation_isSome_iff : s.observation.isSome = true ↔ s.RunEnded ∧ s.ContractKept := by
  unfold Fifo.observation
  split_ifs with ended
  · exact iff_of_true rfl ended
  · exact iff_of_false Bool.false_ne_true ended

/-- After the end what is still listed is no part of the observation (R153). -/
theorem Fifo.RunEnded.observation_drop_inputs (ended : s.RunEnded) :
    Fifo.observation { s with inputs := [] } = s.observation := by
  have still : Fifo.RunEnded { s with inputs := [] } := Fifo.Synchronised.runEnded (Fifo.runEnded_iff.mp ended).2 rfl
  unfold Fifo.observation
  exact if_congr (and_congr_left fun _ => iff_of_true still ended) rfl rfl

/-! ### Idle steps (log 4) -/

/-- Where the copy is already right, copying RC changes nothing (R118). -/
theorem Fifo.crossR2P_of_copied (copied : s.rcSync = s.rc) : s.crossR2P = s := congrArg s.setRcSync copied.symm

/-- Where the copy is already right, copying WC changes nothing (R119). -/
theorem Fifo.crossW2C_of_copied (copied : s.wcSync = s.wc) : s.crossW2C = s := congrArg s.setWcSync copied.symm

/-- With RC copied, an idle step copies WC, which may have been copied already. -/
theorem Fifo.idle_of_rc_copied (copied : s.rcSync = s.rc) : s.idle = s.crossW2C := by
  have disabled : s.r2pEnabled = false := bne_eq_false_iff_eq.mpr copied
  unfold Fifo.idle
  rw [disabled, if_neg Bool.false_ne_true]
  split_ifs with enabled
  · rfl
  · exact (Fifo.crossW2C_of_copied (bne_eq_false_iff_eq.mp (Bool.eq_false_of_not_eq_true enabled))).symm

/-- A synchronised state idles in place. -/
theorem Fifo.Synchronised.idle_eq (synced : s.Synchronised) : s.idle = s :=
  (Fifo.idle_of_rc_copied synced.1).trans (Fifo.crossW2C_of_copied synced.2)

/-- Two idle steps take each crossing that is enabled. -/
theorem Fifo.idle_idle (s : Fifo p) : s.idle.idle = s.crossR2P.crossW2C := by
  by_cases copied : s.rcSync = s.rc
  · rw [Fifo.idle_of_rc_copied copied, Fifo.idle_of_rc_copied (s := s.crossW2C) copied, Fifo.crossR2P_of_copied copied]
    rfl
  · have first : s.idle = s.crossR2P := if_pos (bne_iff_ne.mpr copied)
    rw [first, Fifo.idle_of_rc_copied rfl]

@[simp] theorem Fifo.idle_inputs (s : Fifo p) : s.idle.inputs = s.inputs := by
  unfold Fifo.idle
  split_ifs <;> rfl

/-- With nothing listed the machine idles. -/
theorem step_of_inputs_eq_nil (empty : s.inputs = []) : step ⟨p, s⟩ = .next ⟨p, s.idle⟩ := by
  have same : { s with inputs := [] } = s := by rw [← empty]
  rw [step_idle (by rw [Fifo.due, empty, List.dropWhile_nil]), same]

/-- Settles O8: an ended state idles in place, and with nothing due two idle steps synchronise. -/
theorem idleStepsEndTheRun : Obligations.IdleStepsEndTheRun := by
  intro p s
  refine ⟨Fifo.runEnded_iff, Fifo.observation_isSome_iff, fun ended => ?_, fun none => ?_⟩
  · have synced : Fifo.Synchronised { s with inputs := [] } := (Fifo.runEnded_iff.mp ended).2
    have stays : step ⟨p, s⟩ = .next ⟨p, { s with inputs := [] }⟩ := by rw [step_idle ended.1, synced.idle_eq]
    exact ⟨_, stays, rfl, synced.runEnded rfl, ended.observation_drop_inputs⟩
  · have second := step_of_inputs_eq_nil (Fifo.idle_inputs { s with inputs := [] })
    rw [Fifo.idle_idle] at second
    exact ⟨_, _, step_idle none, second, rfl, Fifo.Synchronised.runEnded ⟨rfl, rfl⟩ rfl⟩

end Sys2Proof.Machine
end

section
/-! Endless runs (R118, R119, R121): what no step can do to a copy, why a fair run copies each cursor again and again, and what a
side that polls is then answered. -/

namespace Sys2Proof.Machine

variable {p : Params} {s t : Fifo p} {i : Instr} {x : Crossing}
variable {schedule : Nat → AgentStep p} {states : Nat → Fifo p} {n : Nat}

/-! ## The copies -/

/-- A command leaves a copy alone, or zeroes it together with its cursor (R96, R115). -/
theorem Fifo.Effect.copy_eq_or_copied (did : s.Effect i t) : x.copy t = x.copy s ∨ x.copy t = x.cursor t := by
  cases did with
  | restart | bind => exact .inr (by cases x <;> simp [Crossing.copy, Crossing.cursor])
  | _ => exact .inl (by cases x <;> simp [Crossing.copy])

/-- A step of the machine leaves a copy alone, or leaves it equal to its cursor. -/
theorem Fifo.Taken.copy_eq_or_copied (taken : s.Taken t) : x.copy t = x.copy s ∨ x.copy t = x.cursor t := by
  cases taken with
  | command _ did =>
    refine did.copy_eq_or_copied.imp_left fun kept => kept.trans ?_
    cases x <;> rfl
  | crossR2P rest =>
    cases x with
    | r2p => exact .inr rfl
    | w2c => exact .inl rfl
  | crossW2C rest =>
    cases x with
    | r2p => exact .inl rfl
    | w2c => exact .inr rfl
  | powerOn rest => exact .inr (by cases x <;> rfl)
  | illegal | extWrite | extRead | ended => exact .inl (by cases x <;> simp [Crossing.copy, Fifo.extWrite, Fifo.extRead])

/-- An agent step is the machine's step when it is the oldest one listed. -/
theorem Fifo.taken_of_agentStep {move : AgentStep p} (taken : agentStep ⟨p, s⟩ move = .next ⟨p, t⟩) :
    Fifo.Taken { s with inputs := move :: s.inputs } t := step_taken (step_of_oldest rfl taken)

/-- An agent step leaves a copy alone, or leaves it equal to its cursor. -/
theorem agentStep_copy_eq_or_copied {move : AgentStep p} (taken : agentStep ⟨p, s⟩ move = .next ⟨p, t⟩) :
    x.copy t = x.copy s ∨ x.copy t = x.cursor t := by
  refine (Fifo.taken_of_agentStep taken).copy_eq_or_copied.imp_left fun kept => kept.trans ?_
  cases x <;> rfl

/-! ## No endless run of crossings alone (R118, R119) -/

/-- How many crossings are enabled. -/
def Fifo.pending (s : Fifo p) : Nat := s.r2pEnabled.toNat + s.w2cEnabled.toNat

/-- A crossing's step disables that crossing and leaves the other as it was. -/
theorem Crossing.pending_lt (taken : agentStep ⟨p, s⟩ x.move = .next ⟨p, t⟩) : t.pending < s.pending := by
  cases x with
  | r2p =>
    obtain ⟨enabled, rfl⟩ := agentStep_crossR2P_iff.mp taken
    have stops : Fifo.r2pEnabled { s with rcSync := s.rc } = false := bne_self_eq_false _
    exact Nat.add_lt_add_right (by rw [stops, enabled]; decide) _
  | w2c =>
    obtain ⟨enabled, rfl⟩ := agentStep_crossW2C_iff.mp taken
    have stops : Fifo.w2cEnabled { s with wcSync := s.wc } = false := bne_self_eq_false _
    exact Nat.add_lt_add_left (by rw [stops, enabled]; decide) _

/-- Step `n` of the run, when it is a crossing's. -/
theorem EndlessRun.crossing (endless : EndlessRun schedule states) (moves : schedule n = x.move) :
    agentStep ⟨p, states n⟩ x.move = .next ⟨p, states (n + 1)⟩ := moves ▸ endless n

/-- A crossing's step changes its copy (R118, R119). -/
theorem EndlessRun.copy_changed (endless : EndlessRun schedule states) (moves : schedule n = x.move) :
    x.copy (states (n + 1)) ≠ x.copy (states n) := by
  obtain ⟨differed, copied, kept⟩ := Crossing.of_agentStep (endless.crossing moves)
  rw [copied, kept]
  exact differed.symm

/-- The number of enabled crossings cannot fall for ever, so from every step on some other agent moves. -/
theorem EndlessRun.exists_other_move (endless : EndlessRun schedule states) (n : Nat) :
    ∃ m, n ≤ m ∧ ∀ x : Crossing, schedule m ≠ x.move := by
  obtain ⟨k, kept⟩ := WellFounded.not_rel_apply_succ (r := (· < ·)) fun k => (states (n + k)).pending
  exact ⟨n + k, Nat.le_add_right n k, fun _ moves => kept (Crossing.pending_lt (endless.crossing moves))⟩

/-- Settles O42: each crossing's step lowers the number of enabled crossings. -/
theorem crossingsHaveNoEndlessRunOfTheirOwn : Obligations.CrossingsHaveNoEndlessRunOfTheirOwn := by
  intro p schedule states endless n
  obtain ⟨m, later, other⟩ := endless.exists_other_move n
  exact ⟨endless.copy_changed (x := .r2p), endless.copy_changed (x := .w2c), m, later, other .r2p, other .w2c⟩

/-! ## Fair runs (R121) -/

/-- Weak fairness of either crossing: one whose copy stays wrong steps. -/
theorem FairRun.exists_crossing (fair : FairRun schedule states) (x : Crossing)
    (wrong : ∀ m, n ≤ m → x.copy (states m) ≠ x.cursor (states m)) : ∃ m, n ≤ m ∧ schedule m = x.move := by
  obtain ⟨_, r2p, w2c⟩ := fair
  have enabled := fun m later => Crossing.enables_iff.mpr (wrong m later)
  cases x with
  | r2p => exact r2p n enabled
  | w2c => exact w2c n enabled

/-- No crossing is starved: its copy is right again at some later state. -/
theorem FairRun.exists_copied (fair : FairRun schedule states) (x : Crossing) (n : Nat) :
    ∃ m, n ≤ m ∧ x.copy (states m) = x.cursor (states m) := by
  by_contra never
  push Not at never
  obtain ⟨m, later, moves⟩ := fair.exists_crossing x never
  exact never (m + 1) (by omega) (Crossing.of_agentStep (fair.1.crossing moves)).2.1

/-- Settles O43: a copy that stayed wrong would make its crossing step, which makes it right. -/
theorem fairRunsCopyEachCursorAgainAndAgain : Obligations.FairRunsCopyEachCursorAgainAndAgain :=
  fun _ _ _ fair n => ⟨fair.exists_copied .r2p n, fair.exists_copied .w2c n⟩

/-- Once a cursor stands still, its copy becomes right and stays right. -/
theorem FairRun.copied_of_still (fair : FairRun schedule states) (x : Crossing)
    (still : ∀ m, n ≤ m → x.cursor (states m) = x.cursor (states n)) :
    ∃ k, n ≤ k ∧ ∀ m, k ≤ m → x.copy (states m) = x.cursor (states m) := by
  obtain ⟨k, later, copied⟩ := fair.exists_copied x n
  refine ⟨k, later, fun m after => ?_⟩
  induction m, after using Nat.le_induction with
  | base => exact copied
  | succ m after ih =>
    rcases agentStep_copy_eq_or_copied (x := x) (fair.1 m) with kept | right
    · rw [kept, ih, still m (by omega), still (m + 1) (by omega)]
    · exact right

/-- Settles O44: with the copy right, the view of the side that polls is the truth. -/
theorem pollingIsAnsweredTheTruthInFairRuns : Obligations.PollingIsAnsweredTheTruthInFairRuns := by
  intro p schedule states fair n
  constructor
  · intro still
    obtain ⟨k, later, copied⟩ := fair.copied_of_still .w2c still
    refine ⟨k, later, fun m after on => ?_⟩
    have truth : (states m).usedOn .consumer = (states m).wc - (states m).rc :=
      congrArg (· - (states m).rc) (copied m after)
    rw [← truth]
    exact Fifo.QueryValue.used.exec_of_configured on
  · intro still
    obtain ⟨k, later, copied⟩ := fair.copied_of_still .r2p still
    refine ⟨k, later, fun m after on => ?_⟩
    have truth : (states m).usedOn .producer = (states m).wc - (states m).rc :=
      congrArg ((states m).wc - ·) (copied m after)
    rw [← truth]
    exact Fifo.QueryValue.free.exec_of_configured on

end Sys2Proof.Machine
end

section
/-! The schedule is only read off by the machine's step: what an agent's step does is the same whatever agent steps are still to
come. So the two forms of a schedule, the list and the endless function, give the same runs (log 3). -/

namespace Sys2Proof.Machine

variable {p : Params} {s t : Fifo p} {i : Instr} {schedule : Nat → AgentStep p} {states : Nat → Fifo p}

/-! ## Updates that ignore the schedule -/

/-- The update gives the same with more agent steps still to come, and leaves those where they are. -/
def IgnoresSchedule (update : Fifo p → Fifo p) : Prop :=
  ∀ s moves, update (s.schedule moves) = (update s).schedule moves

theorem Fifo.respond_schedule (s : Fifo p) (port : Port) (r : Response p) (moves : List (AgentStep p)) :
    (s.schedule moves).respond port r = (s.respond port r).schedule moves := by
  cases port <;> rfl

theorem Fifo.raiseIf_schedule (s : Fifo p) (b : Bool) (kind : ModelFault) (moves : List (AgentStep p)) :
    (s.schedule moves).raiseIf b kind = (s.raiseIf b kind).schedule moves := by
  cases b <;> rfl

theorem Fifo.copyIn_schedule (s : Fifo p) (c : Cursor p) (bytes : List Byte) (moves : List (AgentStep p)) :
    (s.schedule moves).copyIn c bytes = (s.copyIn c bytes).schedule moves := by
  induction bytes generalizing s c with
  | nil => rfl
  | cons byte bytes ih => exact ih (s.memWrite (s.saddr c) byte) (c + 1)

theorem Fifo.copyOut_schedule (s : Fifo p) (c : Cursor p) (k : Nat) (moves : List (AgentStep p)) :
    (s.schedule moves).copyOut c k = s.copyOut c k := by
  rw [Fifo.copyOut_eq_map, Fifo.copyOut_eq_map]
  rfl

theorem Fifo.abandonWindows_schedule (s : Fifo p) (kind : ModelFault) (moves : List (AgentStep p)) :
    (s.schedule moves).abandonWindows kind = (s.abandonWindows kind).schedule moves :=
  congrArg Fifo.closeWindows (s.raiseIf_schedule s.windowOpen kind moves)

theorem Fifo.checkLwFinish_schedule (s : Fifo p) (n : Cursor p) (moves : List (AgentStep p)) :
    (s.schedule moves).checkLwFinish n = (s.checkLwFinish n).schedule moves := by
  unfold Fifo.checkLwFinish
  rw [Fifo.raiseIf_schedule, Fifo.raiseIf_schedule]
  rfl

theorem Fifo.checkLrFinish_schedule (s : Fifo p) (n : Cursor p) (moves : List (AgentStep p)) :
    (s.schedule moves).checkLrFinish n = (s.checkLrFinish n).schedule moves := by
  unfold Fifo.checkLrFinish
  rw [Fifo.raiseIf_schedule, Fifo.raiseIf_schedule]
  rfl

/-- A choice made without looking at the schedule, between updates that ignore it, ignores it. -/
theorem IgnoresSchedule.ite {c : Fifo p → Prop} [∀ s, Decidable (c s)] {yes no : Fifo p → Fifo p}
    (sees : ∀ s moves, c (s.schedule moves) ↔ c s) (onYes : IgnoresSchedule yes) (onNo : IgnoresSchedule no) :
    IgnoresSchedule fun s => if c s then yes s else no s := by
  intro s moves
  by_cases holds : c s
  · simpa [holds, sees] using onYes s moves
  · simpa [holds, sees] using onNo s moves

/-- Ending an update with an answer made without looking at the schedule. -/
theorem IgnoresSchedule.respond {update : Fifo p → Fifo p} {r : Fifo p → Response p} (ignores : IgnoresSchedule update)
    (port : Port) (sees : ∀ s moves, r (s.schedule moves) = r s) :
    IgnoresSchedule fun s => (update s).respond port (r s) := by
  intro s moves
  simp only [ignores s moves, sees, Fifo.respond_schedule]

/-- Only answering. -/
theorem IgnoresSchedule.answer {r : Fifo p → Response p} (port : Port) (sees : ∀ s moves, r (s.schedule moves) = r s) :
    IgnoresSchedule fun s => s.respond port (r s) := IgnoresSchedule.respond (update := id) (fun _ _ => rfl) port sees

/-- The gate of R88 does not look at the schedule. -/
theorem IgnoresSchedule.whenConfigured {update : Fifo p → Fifo p} (ignores : IgnoresSchedule update) (port : Port) :
    IgnoresSchedule fun s => s.whenConfigured port (update s) :=
  IgnoresSchedule.ite (fun _ _ => Iff.rfl) ignores (IgnoresSchedule.answer port fun _ _ => rfl)

/-! ## The commands -/

theorem ignoresSchedule_init (base : Addr p) (size : Cursor p) : IgnoresSchedule fun s => s.init base size :=
  IgnoresSchedule.ite (fun _ _ => Iff.rfl)
    (IgnoresSchedule.respond (fun s moves => by rw [Fifo.abandonWindows_schedule]; rfl) .k fun _ _ => rfl)
    (IgnoresSchedule.respond (fun s moves => by rw [Fifo.abandonWindows_schedule]; rfl) .k fun _ _ => rfl)

theorem ignoresSchedule_reset : IgnoresSchedule (p := p) fun s =>
    (s.abandonWindows .resetWithOpenWindow).zeroCursors.respond .k { status := .ok } :=
  IgnoresSchedule.respond (fun s moves => congrArg Fifo.zeroCursors (s.abandonWindows_schedule _ moves)) .k fun _ _ => rfl

theorem ignoresSchedule_answerQuery {value : Fifo p → Cursor p} (side : Side)
    (sees : ∀ s moves, value (s.schedule moves) = value s) : IgnoresSchedule fun s => s.answerQuery side (value s) :=
  (IgnoresSchedule.answer side.port fun s moves => by rw [sees]).whenConfigured side.port

theorem ignoresSchedule_writeOne (byte : Byte) : IgnoresSchedule (p := p) fun s => s.writeOne byte :=
  IgnoresSchedule.ite (fun _ _ => Iff.rfl) (fun _ _ => rfl) fun _ _ => rfl

theorem ignoresSchedule_writeBytes {k : Fifo p → Cursor p} (sees : ∀ s moves, k (s.schedule moves) = k s)
    (payload : List Byte) : IgnoresSchedule fun s => s.writeBytes (k s) payload := by
  refine IgnoresSchedule.respond (fun s moves => ?_) .p fun s moves => by rw [sees]
  rw [sees, Fifo.copyIn_schedule]
  rfl

theorem ignoresSchedule_writeBulk (n : Cursor p) (payload : List Byte) : IgnoresSchedule fun s => s.writeBulk n payload :=
  IgnoresSchedule.ite (fun _ _ => Iff.rfl) (fun _ _ => rfl) (ignoresSchedule_writeBytes (fun _ _ => rfl) payload)

theorem ignoresSchedule_readOne : IgnoresSchedule (p := p) Fifo.readOne :=
  IgnoresSchedule.ite (fun _ _ => Iff.rfl) (fun _ _ => rfl) fun _ _ => rfl

theorem ignoresSchedule_readBulk (n : Cursor p) : IgnoresSchedule fun s => s.readBulk n :=
  IgnoresSchedule.ite (fun _ _ => Iff.rfl) (fun _ _ => rfl)
    (IgnoresSchedule.respond (fun _ _ => rfl) .c fun s moves => by rw [Fifo.copyOut_schedule]; rfl)

theorem ignoresSchedule_lwFinish (n : Cursor p) : IgnoresSchedule fun s : Fifo p =>
    (((s.checkLwFinish n).setWc (s.wc + n)).setLwOpen false).respond .p { status := .ok } :=
  IgnoresSchedule.respond (fun s moves => by rw [Fifo.checkLwFinish_schedule]; rfl) .p fun _ _ => rfl

theorem ignoresSchedule_lrFinish (n : Cursor p) : IgnoresSchedule fun s : Fifo p =>
    (((s.checkLrFinish n).setRc (s.rc + n)).setLrOpen false).respond .c { status := .ok } :=
  IgnoresSchedule.respond (fun s moves => by rw [Fifo.checkLrFinish_schedule]; rfl) .c fun _ _ => rfl

/-- A bulk write that has a next state carries the announced payload (R73). -/
theorem payloadFits_of_next {n : Nat} {payload : List Byte} {done : Host.Outcome State Fault Refusal} {u : State}
    (taken : (if payloadFits p n payload then done else .refused .payloadLength) = .next u) :
    payloadFits p n payload = true := by
  by_contra misfit
  rw [if_neg misfit] at taken
  cases taken

/-- A command that has a next state runs, from every state, an update that ignores the schedule. -/
theorem exec_eq_update (taken : exec i ⟨p, s⟩ = .next ⟨p, t⟩) :
    ∃ update : Fifo p → Fifo p, IgnoresSchedule update ∧ ∀ s, exec i ⟨p, s⟩ = .next ⟨p, update s⟩ := by
  cases i with
  | init base size => exact ⟨_, ignoresSchedule_init (p.addr base) (p.cursor size), fun _ => rfl⟩
  | reset => exact ⟨_, ignoresSchedule_reset.whenConfigured .k, fun _ => rfl⟩
  | size side => exact ⟨_, ignoresSchedule_answerQuery side (value := Fifo.capacity) fun _ _ => rfl, fun _ => rfl⟩
  | used side =>
    exact ⟨_, ignoresSchedule_answerQuery side (value := (·.usedOn side)) fun _ _ => by cases side <;> rfl, fun _ => rfl⟩
  | free side =>
    exact ⟨_, ignoresSchedule_answerQuery side (value := (·.freeOn side)) fun _ _ => by cases side <;> rfl, fun _ => rfl⟩
  | isFull side =>
    exact ⟨_, ignoresSchedule_answerQuery side (value := fun s => boolValue (s.fullOn side)) fun _ _ => by cases side <;> rfl,
      fun _ => rfl⟩
  | isEmpty side =>
    exact ⟨_, ignoresSchedule_answerQuery side (value := fun s => boolValue (s.emptyOn side)) fun _ _ => by cases side <;> rfl,
      fun _ => rfl⟩
  | writeOne byte => exact ⟨_, (ignoresSchedule_writeOne byte).whenConfigured .p, fun _ => rfl⟩
  | writeBulk n payload =>
    exact ⟨_, (ignoresSchedule_writeBulk (p.cursor n) payload).whenConfigured .p,
      fun _ => execWriteBulk_of_payloadFits (payloadFits_of_next taken)⟩
  | writeBulkTrunc n payload =>
    exact ⟨_, (ignoresSchedule_writeBytes (k := (minOf (p.cursor n) ·.freeP)) (fun _ _ => rfl) payload).whenConfigured .p,
      fun _ => execWriteBulkTrunc_of_payloadFits (payloadFits_of_next taken)⟩
  | lwRegion =>
    exact ⟨_, (IgnoresSchedule.respond (update := (·.setLwOpen true)) (r := fun s => s.windowAt s.wc) (fun _ _ => rfl) .p
      fun _ _ => rfl).whenConfigured .p, fun _ => rfl⟩
  | lwRemaining =>
    exact ⟨_, (IgnoresSchedule.answer (r := fun s => { status := .ok, value := s.remainIn }) .p
      fun _ _ => rfl).whenConfigured .p, fun _ => rfl⟩
  | lwFinish n => exact ⟨_, (ignoresSchedule_lwFinish (p.cursor n)).whenConfigured .p, fun _ => rfl⟩
  | readOne => exact ⟨_, ignoresSchedule_readOne.whenConfigured .c, fun _ => rfl⟩
  | peekOne => exact ⟨_, (IgnoresSchedule.answer (r := Fifo.frontResponse) .c fun _ _ => rfl).whenConfigured .c, fun _ => rfl⟩
  | readBulk n => exact ⟨_, (ignoresSchedule_readBulk (p.cursor n)).whenConfigured .c, fun _ => rfl⟩
  | lrRegion =>
    exact ⟨_, (IgnoresSchedule.respond (update := (·.setLrOpen true)) (r := fun s => s.windowAt s.rc) (fun _ _ => rfl) .c
      fun _ _ => rfl).whenConfigured .c, fun _ => rfl⟩
  | lrRemaining =>
    exact ⟨_, (IgnoresSchedule.answer (r := fun s => { status := .ok, value := s.remainOut }) .c
      fun _ _ => rfl).whenConfigured .c, fun _ => rfl⟩
  | lrFinish n => exact ⟨_, (ignoresSchedule_lrFinish (p.cursor n)).whenConfigured .c, fun _ => rfl⟩

/-- A command does the same with more agent steps still to come. -/
theorem exec_schedule (taken : exec i ⟨p, s⟩ = .next ⟨p, t⟩) (moves : List (AgentStep p)) :
    exec i ⟨p, s.schedule moves⟩ = .next ⟨p, t.schedule moves⟩ := by
  obtain ⟨update, ignores, runs⟩ := exec_eq_update taken
  cases (runs s).symm.trans taken
  rw [runs, ignores]

/-! ## The agents, and the runs -/

/-- An agent does the same with more agent steps still to come. -/
theorem agentStep_schedule {move : AgentStep p} (taken : agentStep ⟨p, s⟩ move = .next ⟨p, t⟩)
    (moves : List (AgentStep p)) :
    agentStep ⟨p, s.schedule moves⟩ move = .next ⟨p, t.schedule moves⟩ := by
  cases move with
  | command port word payload =>
    have reached : portStep ⟨p, s⟩ port word payload = .next ⟨p, t⟩ := taken
    show portStep ⟨p, s.schedule moves⟩ port word payload = .next ⟨p, t.schedule moves⟩
    cases verdict : decode port word payload with
    | command i =>
      rw [portStep_command (s := ⟨p, _⟩) verdict] at reached ⊢
      exact exec_schedule reached moves
    | illegal =>
      rw [portStep_illegal (s := ⟨p, _⟩) verdict] at reached ⊢
      cases reached
      rw [Fifo.respond_schedule]
      rfl
    | refused =>
      rw [portStep_refused (s := ⟨p, _⟩) verdict] at reached
      cases reached
  | crossR2P =>
    obtain ⟨enabled, rfl⟩ := agentStep_crossR2P_iff.mp taken
    exact agentStep_crossR2P_iff.mpr ⟨enabled, rfl⟩
  | crossW2C =>
    obtain ⟨enabled, rfl⟩ := agentStep_crossW2C_iff.mp taken
    exact agentStep_crossW2C_iff.mpr ⟨enabled, rfl⟩
  | extWrite a v =>
    cases taken
    exact congrArg (State.next ⟨p, s⟩) (Fifo.raiseIf_schedule (s.memWrite a v) _ _ moves)
  | extRead | powerOn =>
    cases taken
    rfl

/-- What is left of an endless run after its first step is one. -/
theorem EndlessRun.tail (endless : EndlessRun schedule states) :
    EndlessRun (fun n => schedule (n + 1)) fun n => states (n + 1) := fun n => endless (n + 1)

/-- The first `n` agent steps of an endless run, listed. -/
def firstMoves (schedule : Nat → AgentStep p) (n : Nat) : List (AgentStep p) := (List.range n).map schedule

theorem firstMoves_succ (schedule : Nat → AgentStep p) (n : Nat) :
    firstMoves schedule (n + 1) = schedule 0 :: firstMoves (fun n => schedule (n + 1)) n := by
  simp [firstMoves, List.range_succ_eq_map, Function.comp_def]

@[simp] theorem firstMoves_length (schedule : Nat → AgentStep p) (n : Nat) : (firstMoves schedule n).length = n := by
  simp [firstMoves]

/-- Settles O45: the run's first agent step is taken with the others still listed, and the rest is an endless run again. -/
theorem everyPrefixOfAnEndlessRunIsARunOfTheMachine : Obligations.EveryPrefixOfAnEndlessRunIsARunOfTheMachine := by
  intro p schedule states endless n
  show steps n ⟨p, (states 0).schedule (firstMoves schedule n)⟩ = _
  induction n generalizing schedule states with
  | zero => rfl
  | succ n ih =>
    have first := steps_schedule_cons (agentStep_schedule (endless 0) (firstMoves (fun n => schedule (n + 1)) n))
    rw [List.length_cons, firstMoves_length] at first
    rw [firstMoves_succ, first]
    exact ih _ _ endless.tail

end Sys2Proof.Machine
end

section
/-! The failures of the status table (R124 to R127): the status each command answers, as a function of the state, and what a failing
command leaves behind. -/

namespace Sys2Proof.Machine

variable {p : Params} {s t u : Fifo p} {port : Port} {status : Status} {r : Response p} {i : Instr}

/-! ## The status table (R124) -/

/-- The status of a command that would answer `status` on a configured core, and stands behind the gate of R88. -/
def Fifo.gated (s : Fifo p) (status : Status) : Status := if s.configured then status else .notConfigured

/-- The status each command answers: the rows of R124 read by command. -/
def Fifo.statusOf (s : Fifo p) : Instr → Status
  | .init base size => if legalConfig (p.addr base) (p.cursor size) = false then .configError else .ok
  | .writeOne _ => s.gated (if s.freeP = 0 then .full else .ok)
  | .writeBulk n _ => s.gated (if s.freeP < p.cursor n then .full else .ok)
  | .readOne | .peekOne => s.gated (if s.usedC = 0 then .empty else .ok)
  | .readBulk n => s.gated (if s.usedC < p.cursor n then .empty else .ok)
  | _ => s.gated .ok

/-- A check that answers OK when it does not fail answers a failure exactly when it fails with it. -/
@[simp] theorem Status.ite_ok_eq_iff {failing : Prop} [Decidable failing] {failure : Status} (notOk : status ≠ .ok) :
    (if failing then failure else .ok) = status ↔ failing ∧ failure = status := by
  split_ifs with fails <;> simp [fails, notOk.symm]

/-- The gate passes every other status on while the core is configured. -/
@[simp] theorem Fifo.gated_eq_iff (gate : status ≠ .notConfigured) {own : Status} :
    s.gated own = status ↔ s.configured = true ∧ own = status := by
  unfold Fifo.gated
  split_ifs with on <;> simp [on, gate.symm]

/-- The gate alone answers NOT_CONFIGURED, since no check of a command's own does. -/
theorem Fifo.gated_eq_notConfigured_iff {own : Status} (check : own ≠ .notConfigured) :
    s.gated own = .notConfigured ↔ s.configured = false := by
  unfold Fifo.gated
  split_ifs with on <;> simp [on, check]

theorem Fifo.statusOf_eq_full_iff : s.statusOf i = .full ↔ s.configured = true ∧
    ((∃ byte, i = .writeOne byte ∧ s.freeP = 0) ∨ ∃ n payload, i = .writeBulk n payload ∧ s.freeP < p.cursor n) := by
  cases i <;> simp [Fifo.statusOf]

theorem Fifo.statusOf_eq_empty_iff : s.statusOf i = .empty ↔ s.configured = true ∧
    (((i = .readOne ∨ i = .peekOne) ∧ s.usedC = 0) ∨ ∃ n, i = .readBulk n ∧ s.usedC < p.cursor n) := by
  cases i <;> simp [Fifo.statusOf]

theorem Fifo.statusOf_eq_configError_iff : s.statusOf i = .configError ↔
    ∃ base size, i = .init base size ∧ legalConfig (p.addr base) (p.cursor size) = false := by
  cases i <;> simp [Fifo.statusOf]

theorem Fifo.statusOf_eq_notConfigured_iff :
    s.statusOf i = .notConfigured ↔ s.configured = false ∧ ∀ base size, i ≠ .init base size := by
  cases i with
  | init base size => simp [Fifo.statusOf]
  | _ =>
    refine (Fifo.gated_eq_notConfigured_iff ?_).trans (by simp)
    simp

theorem Fifo.statusOf_ne_illegal : s.statusOf i ≠ .illegal := by
  cases i <;> simp [Fifo.statusOf]

/-! ## How a command concludes -/

/-- The state `t` is how a command on `port` leaves `s` when it answers `status`. -/
inductive Fifo.Concludes (s : Fifo p) (port : Port) : Status → Fifo p → Prop
  /-- It answers OK, after updates that no agent's trace shows. -/
  | ok {u : Fifo p} {r : Response p} (same : s.SameTrace u) (ok : r.status = .ok) : Fifo.Concludes s port .ok (u.respond port r)
  /-- It answers and does nothing else, as a failing command does (R127). -/
  | answer (status : Status) : Fifo.Concludes s port status (s.respond port { status := status })
  /-- It answers CONFIG_ERROR, the one failure that comes with updates (R96, R127). -/
  | configError {u : Fifo p} (same : s.SameTrace u) :
      Fifo.Concludes s port .configError (u.respond port { status := .configError })

/-- The response a command gives has the status it concludes with. -/
theorem Fifo.Concludes.status_eq (done : s.Concludes port status t)
    (answered : t.responses port = s.responses port ++ [r]) : r.status = status := by
  cases done with
  | ok same ok =>
    obtain rfl : _ = r := by simpa [same.responses] using answered
    exact ok
  | answer =>
    obtain rfl : _ = r := by simpa using answered
    rfl
  | configError same =>
    obtain rfl : _ = r := by simpa [same.responses] using answered
    rfl

/-- A failure other than CONFIG_ERROR is the response alone. -/
theorem Fifo.Concludes.eq_respond (done : s.Concludes port status t) (notOk : status ≠ .ok) (notConfigError : status ≠ .configError) :
    t = s.respond port { status := status } := by
  cases done with
  | ok => exact absurd rfl notOk
  | answer => rfl
  | configError => exact absurd rfl notConfigError

theorem Fifo.concludes_ok (s : Fifo p) (ok : r.status = .ok) : s.Concludes port .ok (s.respond port r) :=
  .ok (Fifo.SameTrace.refl s) ok

/-- Behind the gate of R88 a command concludes as it would, or with NOT_CONFIGURED. -/
theorem Fifo.Concludes.whenConfigured (done : s.Concludes port status t) :
    s.Concludes port (s.gated status) (s.whenConfigured port t) := by
  unfold Fifo.gated Fifo.whenConfigured
  split_ifs
  · exact done
  · exact .answer _

/-! ## The commands with a check of their own -/

theorem Fifo.concludes_init (s : Fifo p) (base : Addr p) (size : Cursor p) :
    s.Concludes .k (if legalConfig base size = false then .configError else .ok) (s.init base size) := by
  unfold Fifo.init
  cases legalConfig base size with
  | true => exact .ok (by constructor <;> simp) rfl
  | false => exact .configError (by constructor <;> simp)

theorem Fifo.fullOn_producer_iff : s.fullOn .producer = true ↔ s.freeP = 0 := beq_iff_eq

theorem Fifo.emptyOn_consumer_iff : s.emptyOn .consumer = true ↔ s.usedC = 0 := beq_iff_eq

theorem Fifo.concludes_writeOne (s : Fifo p) (byte : Byte) :
    s.Concludes .p (if s.freeP = 0 then .full else .ok) (s.writeOne byte) := by
  simp only [Fifo.writeOne, Fifo.fullOn_producer_iff]
  split_ifs
  · exact .answer _
  · exact .ok (by constructor <;> simp) rfl

theorem Fifo.concludes_writeBytes (s : Fifo p) (k : Cursor p) (payload : List Byte) :
    s.Concludes .p .ok (s.writeBytes k payload) := .ok (by constructor <;> simp) rfl

theorem Fifo.concludes_writeBulk (s : Fifo p) (n : Cursor p) (payload : List Byte) :
    s.Concludes .p (if s.freeP < n then .full else .ok) (s.writeBulk n payload) := by
  unfold Fifo.writeBulk
  split_ifs
  · exact .answer _
  · exact s.concludes_writeBytes n payload

theorem Fifo.concludes_readOne (s : Fifo p) : s.Concludes .c (if s.usedC = 0 then .empty else .ok) s.readOne := by
  simp only [Fifo.readOne, Fifo.emptyOn_consumer_iff]
  split_ifs with empty
  · rw [Fifo.frontResponse_of_empty empty]
    exact .answer _
  · rw [Fifo.frontResponse_of_some empty]
    exact .ok (by constructor <;> simp) rfl

theorem Fifo.concludes_peekOne (s : Fifo p) :
    s.Concludes .c (if s.usedC = 0 then .empty else .ok) (s.respond .c s.frontResponse) := by
  split_ifs with empty
  · rw [Fifo.frontResponse_of_empty empty]
    exact .answer _
  · rw [Fifo.frontResponse_of_some empty]
    exact s.concludes_ok rfl

theorem Fifo.concludes_readBulk (s : Fifo p) (n : Cursor p) :
    s.Concludes .c (if s.usedC < n then .empty else .ok) (s.readBulk n) := by
  unfold Fifo.readBulk
  split_ifs
  · exact .answer _
  · exact .ok (by constructor <;> simp) rfl

/-! ## Every command -/

theorem Fifo.Concludes.of_next (done : s.Concludes port status u)
    (taken : State.next { params := p, fifo := s } u = .next { params := p, fifo := t }) : s.Concludes port status t := by
  cases taken
  exact done

/-- Every command that has a next state concludes with the status of its row. -/
theorem exec_concludes (taken : exec i ⟨p, s⟩ = .next ⟨p, t⟩) : s.Concludes i.port (s.statusOf i) t := by
  cases i with
  | init base size => exact (s.concludes_init _ _).of_next taken
  | size side | used side | free side | isFull side | isEmpty side | lwRemaining | lrRemaining =>
    exact (s.concludes_ok rfl).whenConfigured.of_next taken
  | writeOne byte => exact (s.concludes_writeOne byte).whenConfigured.of_next taken
  | writeBulk n payload =>
    exact (s.concludes_writeBulk _ payload).whenConfigured.of_next (execWriteBulk_eq_next taken)
  | writeBulkTrunc n payload =>
    exact (s.concludes_writeBytes _ payload).whenConfigured.of_next (execWriteBulkTrunc_eq_next taken)
  | readOne => exact s.concludes_readOne.whenConfigured.of_next taken
  | peekOne => exact s.concludes_peekOne.whenConfigured.of_next taken
  | readBulk n => exact (s.concludes_readBulk _).whenConfigured.of_next taken
  | reset | lwRegion | lwFinish n | lrRegion | lrFinish n =>
    exact (Fifo.Concludes.ok (by constructor <;> simp) rfl).whenConfigured.of_next taken

/-- Settles O16: a well-formed command has a next state, and NOT_CONFIGURED is a failure that does nothing else. -/
theorem unconfiguredCoreAnswersOnlyInit : Obligations.UnconfiguredCoreAnswersOnlyInit := by
  intro p i s wf off notInit
  obtain ⟨t, runs, _⟩ := exec_answers s wf
  have done := exec_concludes runs
  rw [Fifo.statusOf_eq_notConfigured_iff.mpr ⟨off, notInit⟩] at done
  rw [runs, done.eq_respond (by decide) (by decide)]

/-- Settles O17: the response shows how the command concluded; CONFIG_ERROR is INIT's alone, and `Fifo.init_of_not_legal` says what it
leaves. -/
theorem failedCommandsChangeNothing : Obligations.FailedCommandsChangeNothing := by
  intro p i s t r taken answered notOk
  have done := exec_concludes taken
  have row := done.status_eq answered
  refine ⟨fun notConfigError => ?_, fun configError => ?_⟩
  · have only := done.eq_respond (row ▸ notOk) (row ▸ notConfigError)
    obtain rfl : _ = r := by simpa [only] using answered
    exact only
  · obtain ⟨base, size, rfl, illegal⟩ := Fifo.statusOf_eq_configError_iff.mp (row.symm.trans configError)
    obtain rfl : s.init (p.addr base) (p.cursor size) = t := by cases taken; rfl
    rw [Fifo.init_of_not_legal illegal] at answered ⊢
    obtain rfl : _ = r := by simpa [Fifo.responses, Instr.port] using answered
    exact ⟨⟨base, size, rfl⟩, rfl, Fifo.mem_abandonWindows_faults s _⟩

/-- Settles O18: the response has the status of the command's row. -/
theorem eachStatusHasItsCause : Obligations.EachStatusHasItsCause := by
  intro p i s t r taken answered
  rw [(exec_concludes taken).status_eq answered]
  exact ⟨Fifo.statusOf_eq_full_iff, Fifo.statusOf_eq_empty_iff, Fifo.statusOf_eq_configError_iff,
    Fifo.statusOf_eq_notConfigured_iff, Fifo.statusOf_ne_illegal⟩

end Sys2Proof.Machine
end

section
/-! Power-on reset under way, and the configured launch (R38, R44, R141, R152). -/

namespace Sys2Proof.Machine

variable {p : Params} {launch : Fifo p}

/-- Settles O3: the step is `Fifo.powerOn`. -/
theorem powerOnEventKeepsFaultsAndMemory : Obligations.PowerOnEventKeepsFaultsAndMemory :=
  fun _ _ _ oldest => step_of_oldest oldest rfl

/-- A power-on launch has no model fault recorded, and its open-window check records none, since no window is open (R152). -/
theorem Fifo.PowerOnLaunch.abandonWindows_faults (atLaunch : launch.PowerOnLaunch) (kind : ModelFault) :
    (launch.abandonWindows kind).faults = [] := by
  obtain ⟨registers, _⟩ := atLaunch
  rw [registers]
  rfl

/-- A power-on launch meets the invariant, whatever its memory and schedule. -/
theorem Fifo.PowerOnLaunch.inv (atLaunch : launch.PowerOnLaunch) : launch.Inv := by
  obtain ⟨registers, memory⟩ := atLaunch
  obtain ⟨⟨_, faults⟩, config, view⟩ := Fifo.inv_reset p
  rw [registers]
  exact ⟨⟨memory, faults⟩, config, view⟩

/-- Settles O24: the launch is what INIT leaves on a legal configuration, and INIT keeps the invariant of the power-on launch. -/
theorem configuredLaunchIsCleanAndMeetsTheInvariant : Obligations.ConfiguredLaunchIsCleanAndMeetsTheInvariant := by
  rintro p launch base size s ⟨atLaunch, legal, rfl⟩
  have runs := exec_init_toNat launch base size
  have inv := (exec_effect runs).inv atLaunch.inv
  rw [Fifo.init_of_legal legal] at runs inv ⊢
  exact ⟨runs, rfl, rfl, rfl, rfl, rfl, rfl, rfl, rfl, rfl, rfl, atLaunch.abandonWindows_faults _, rfl, inv⟩

end Sys2Proof.Machine
end
